-- ==== Sys2Proof/Word.lean ====
section
/-!
DEFINITION. The word types of the engine and their plainest arithmetic (R8, R25, R121).
-/

namespace Sys2Proof

abbrev Byte := BitVec 8
abbrev Half := BitVec 16
abbrev Word := BitVec 32
abbrev DWord := BitVec 64
/-- An engine address: 52 bits (R25). -/
abbrev EngAddr := BitVec 52
/-- A microword (R67). -/
abbrev MicroWord := BitVec 192
/-- A segment descriptor (R132). -/
abbrev Desc := BitVec 128

/-- Gallery number (R6). -/
abbrev GalId := Fin 16
/-- Engine-wide sequencer number SEQN = 8 g + q (R19). -/
abbrev SeqId := Fin 128
/-- Mailbox number (R312). -/
abbrev MbId := Fin 64

/-- One bit as a Boolean. -/
def bit {w : Nat} (x : BitVec w) (i : Nat) : Bool := x.getLsbD i

/-- Bits hi down to lo of a register, both ends included (R9). -/
def bits {w : Nat} (x : BitVec w) (hi lo : Nat) : BitVec (hi - lo + 1) := x.extractLsb' lo (hi - lo + 1)

/-- Replaces the n bits of x from bit lo up by those of v. -/
def putBits {w n : Nat} (x : BitVec w) (lo : Nat) (v : BitVec n) : BitVec w :=
  (x &&& ~~~((BitVec.allOnes n).setWidth w <<< lo)) ||| (v.setWidth w <<< lo)

/-- Sets or clears one bit. -/
def putBit {w : Nat} (x : BitVec w) (i : Nat) (b : Bool) : BitVec w :=
  if b then x ||| (BitVec.ofNat w 1 <<< i) else x &&& ~~~(BitVec.ofNat w 1 <<< i)

/-- A Boolean as a one-bit number of the wanted width. -/
def ofB (w : Nat) (b : Bool) : BitVec w := if b then BitVec.ofNat w 1 else 0

/-- Saturating increment of an 8-bit count, as the CE, UE and LOST fields do. -/
def satInc8 (x : Byte) : Byte := if x = 255#8 then x else x + 1

/-- A count that stops at a largest value. -/
def satAdd (top a b : Nat) : Nat := Nat.min top (a + b)

/-- The exclusive or of all bits. -/
def parity {w : Nat} (x : BitVec w) : Bool :=
  (List.range w).foldl (fun p i => xor p (x.getLsbD i)) false

/-- The bits in the opposite order. -/
def bitRev {w : Nat} (x : BitVec w) : BitVec w :=
  (List.range w).foldl (fun r i => if x.getLsbD i then r ||| (BitVec.ofNat w 1 <<< (w - 1 - i)) else r) 0

/-- The bytes of a number, least significant first (R153). -/
def leBytes (n : Nat) (x : Nat) : List Byte :=
  match n with
  | 0 => []
  | k + 1 => BitVec.ofNat 8 x :: leBytes k (x / 256)

/-- The number whose bytes these are, least significant first. -/
def ofLeBytes : List Byte → Nat
  | [] => 0
  | b :: bs => b.toNat + 256 * ofLeBytes bs

/-- The gallery of a sequencer (R19). -/
def galOf (q : SeqId) : GalId := ⟨q.val / 8, by omega⟩

/-- The number of a sequencer inside its gallery. -/
def idxOf (q : SeqId) : Fin 8 := ⟨q.val % 8, by omega⟩

/-- The sequencer Q<i> of gallery g (R19). -/
def seqId (g : GalId) (i : Fin 8) : SeqId := ⟨8 * g.val + i.val, by omega⟩

end Sys2Proof
end

