-- ==== Sys2Proof/Config.lean ====
section
/-!
DEFINITION. What the manual leaves to the delivered block or leaves open: constants without a body, so that
nothing can be proved of a value of theirs, and the three configurations (R4).
-/

namespace Sys2Proof

/-- The three configurations (R4). -/
inductive Variant where
  | it4 | it8 | it16
  deriving DecidableEq, Repr

/-- Galleries of a configuration (R4). -/
def Variant.ngal : Variant → Nat
  | .it4 => 4
  | .it8 => 8
  | .it16 => 16

/-- Power domains of a configuration (R4). -/
def Variant.npd : Variant → Nat
  | .it4 => 16
  | .it8 => 24
  | .it16 => 40

/-- ENGCFG.AOTMR: the gallery timers live in the always-on domain (R310). -/
def Variant.aotmr : Variant → Bool
  | .it16 => false
  | _ => true

namespace Config

/-- Free value (log 3): OFS of a record or packet, the fc since the tick's start (R382, R384). -/
opaque freeOfs : Nat → Half
/-- Free value (log 3): what POOLR holds after a compare, which delivers no number (R212, R226). -/
opaque freeWord : Nat → Word
/-- Free value (log 3): a byte of a bank whose retention rail was lost (R394). -/
opaque lostByte : Nat → Byte
/-- Free value (log 3): whether a codeword of such a bank passes SECDED (R394). -/
opaque lostPasses : Nat → Bool
/-- Free value (log 87): whether the memory BIST of a gallery that is powered on in TEST fails (R344). -/
opaque bistFails : Nat → Bool
/-- The failing memory a BISTFAIL record names, by domain (R385). -/
opaque bistMemory : Nat → Half
/-- Control-store words of the boot-ROM Aferset part (R113). -/
opaque bootWord : Nat → MicroWord
/-- Dispatch-map entries of the boot-ROM Aferset part (R113). -/
opaque bootMapEntry : Nat → BitVec 12
/-- IMGVER of the boot-ROM control-store part (R113). -/
opaque bootImgVer : Word
/-- IMGVER of the boot-ROM map part (R113). -/
opaque bootMapVer : Word
/-- What bounds the floor of the boot-ROM firmware (R105, R113); see `bootFloor`. -/
opaque imgFloor : Word
/-- The floor of the boot-ROM firmware: at most the IMGVER of the boot-ROM control-store part (R113). -/
def bootFloor : Word := if imgFloor ≤ bootImgVer then imgFloor else bootImgVer
/-- IMGVER of the boot-ROM firmware, the reset value of MPFWVER (R113). -/
opaque bootFwVer : Word
/-- Key-store slot of Aferset images (R103). -/
opaque aferSlot : Byte
/-- Key-store slot of licensee images (R103). -/
opaque licSlot : Byte
/-- The Aferset runtime code and vector table, copied to gallery offsets 0x0A00 to 0x1FFF (R401). -/
opaque runtimeCode : Nat → Byte
/-- The export list carried by an Aferset control-store payload, whose form the manual does not give (R104). -/
opaque exportList : List MicroWord → List (BitVec 12)
/-- The first 16 bytes of the digest over the attachment counter, computed by the chip (R360). -/
opaque nonceOf : BitVec 128 → BitVec 128
/-- Free value (log 34): the debit classes of the words that issue where the manual gives no figure for their number. -/
opaque freeWords : Nat → List (BitVec 4)
/-- Free value (log 34): the debit class of the i-th word of a routine whose number of words R145 or R403 gives, beyond those
whose class R399 fixes. -/
opaque freeClass : Nat → Nat → BitVec 4
/-- Free value (log 34): the cc of a routine in which a word holds or a wait of class NONE runs (R65, R145, R399). -/
opaque freeHold : Nat → Nat
/-- Free value (log 3): which of the places that the rules allow the firmware takes for a program object (R334) or a re-homed segment (R269). -/
opaque freeChoice : Nat → Nat
/-- Free value (log 90): where in the MPSTG region the MP puts a copy of an image (R101). -/
opaque stagePlace : Nat → Nat
/-- Free value (log 49): whether a publication falls in the fc of the newest count in flight on its channel (R292). -/
opaque sameFc : Nat → Bool
/-- Free value (log 49): whether the cell that an input names has already been evaluated in the fc of the cell's evaluation (R301). -/
opaque evaluated : Nat → Nat → Bool
/-- Free value (log 98): whether a microcycle of a sequencer fetches a further word into its instruction queue, whose depth and
rate the manual does not give (R134). -/
opaque fetchAhead : Nat → Bool
/-- Free value (log 98): the bits that the decode fields of a queue without a valid head word hold (R72, R79). -/
opaque emptyHead : Word
/-- Free value (log 99): whether the requests of other sequencers refuse a pool issue outside CT mode (R211). -/
opaque poolRefused : Nat → Bool
/-- Free value (log 100): the address of the microword that follows the one pair of a DISP with PAIR 0x1, by the address of the
DISP (R80). -/
opaque afterPair : BitVec 12 → BitVec 12
/-- The least control-store IMGVER that the firmware of an image accepts (R105); firmware payloads are opaque (R99). -/
opaque fwFloor : List Byte → Word
/-- What a patch payload programs into patch unit n of 0 to 23 (R119); payloads are opaque (R99). -/
opaque patchUnit : List Byte → Nat → BitVec 96
/-- Whether a patch payload names units 24 to 31 (R119); payloads are opaque (R99). -/
opaque patchNamesLantern : List Byte → Bool

end Config

end Sys2Proof
end

