-- ==== Sys2Proof/Syntax.lean ====
section
/-!
DEFINITION. The commands of the block: one constructor for each row of spec/opcode_table.json, with the row's operands.
The table gives no bits; an instruction command carries the decode fields of its form (R142).
-/

namespace Sys2Proof

/-- Form R (R142). -/
structure FormR where
  minor : BitVec 4
  rd : BitVec 5
  rs : BitVec 5
  rx : BitVec 5
  segn : BitVec 3
  deriving DecidableEq, Repr

/-- The fields of a major that uses form R or form I8 by its minor (R142). -/
structure FormRI where
  minor : BitVec 4
  rd : BitVec 5
  rs : BitVec 5
  rx : BitVec 5
  imm : Byte
  deriving DecidableEq, Repr

/-- A stream word: Ss = S[MINOR[2:0]], Sd = S[SEGN] and the register fields; MINOR[3] stands apart (R172). -/
structure FormS where
  ss : BitVec 3
  sd : BitVec 3
  rd : BitVec 5
  rs : BitVec 5
  rx : BitVec 5
  deriving DecidableEq, Repr

/-- Shift count: IMM8[4:0] (minors 0x0 to 0x4) or B[RS] (minors 0x8 to 0xC) (R158). -/
inductive ShiftCount where
  | imm (n : BitVec 5)
  | reg (rs : BitVec 5)
  deriving DecidableEq, Repr

/-- The kinds of media credit (R272). -/
inductive CreditKind where
  | request | readData | writeData
  deriving DecidableEq, Repr

/-- The comparator's pair dg_eq, dg_eq_n; for a comparison of the MP's, `late` says that dg_cmp_vld did not rise in time (R290). -/
structure CmpPair where
  eq : Bool
  eqn : Bool
  late : Bool := false
  deriving DecidableEq, Repr

/-- What happens while a UCODE_COMMIT runs (R108 to R112): the galleries whose read-back differs, and the gallery at whose writing
the command leaves it, so that what meets a commit in progress can come next. -/
structure CommitCourse where
  bad : Half
  pause : Option GalId
  deriving DecidableEq, Repr

/-- What ends LOAD (R341, R50): the galleries whose commit failed, and the grant and the hold-up report on the pins then. -/
structure LoadCourse where
  failed : Half
  grant : BitVec 24
  hold : BitVec 24
  deriving DecidableEq, Repr

/-- Who makes a register write: the MP, a sequencer of the gallery, the host window, or Lantern (R258, R373, R380). -/
inductive Agent where
  | mp
  | seq (i : Fin 8)
  | host
  | lantern
  deriving DecidableEq, Repr

/-- How the MP's buffer-memory transfers of a command ended: all OK, one with this outcome code (R278), or one that timed out
and orphaned its tag (R402, R273). -/
inductive MpXfer where
  | ok
  | failed (code : BitVec 3)
  | timedOut (tag : Fin 1024)
  deriving DecidableEq, Repr

/-- A memory BIST failure: a gallery, or a shared domain (R343). -/
inductive BistFail where
  | gallery (g : GalId)
  | shared (d : Fin 40)
  deriving DecidableEq, Repr

/-- The wide operations of majors 0x10 to 0x1B, as run-ahead may execute them (R158, R203). -/
inductive WideOp where
  | addW | adcW | subW | sbcW | cmpW | andW | orW | xorW | andnW | notW | negW
  | addH | adcH | subH | sbcH | cmpH | andH | orH | xorH | notH | negH
  | shlW (n : ShiftCount) | shrW (n : ShiftCount) | asrW (n : ShiftCount) | rolW (n : ShiftCount) | rorW (n : ShiftCount)
  | shlH (n : ShiftCount) | shrH (n : ShiftCount) | asrH (n : ShiftCount) | rolH (n : ShiftCount) | rorH (n : ShiftCount)
  | brevW | brevH | parW | parH | swapbH | sextH | zextH | sextW | zextW | clzW
  | crci | crcbW | crcH | crcW | crcF
  | addiH (imm : Byte) | addiW (imm : Byte) | cmpiH (imm : Byte) | cmpiW (imm : Byte)
  deriving DecidableEq, Repr

/-- Load kinds of run-ahead (R203). -/
inductive LoadKind where
  | b | h | w | a
  deriving DecidableEq, Repr

/-- An instruction met in run-ahead (R203): the permitted ones, and any other. -/
inductive ShadowInstr where
  | pair (w : Word)
  | movl (f : FormRI)
  | lea (f : FormRI)
  | wide (op : WideOp) (rd rs : BitVec 5)
  | jmp (t : Half)
  | jcc (minor : BitVec 4) (t : Half)
  | loop (rd : BitVec 5) (imm : Byte)
  | load (k : LoadKind) (f : FormR)
  | fetch (nospec : Bool) (f : FormS)
  | waitt
  | other
  deriving DecidableEq, Repr

/-- What raises an EXCEPTION_ENTRY that no instruction command raises itself (R89, R143, R171, R243): a word outside
the defined encodings, by its major or minor, a dispatch to a map entry of 0x000, the head instruction's own fetch fault, or a
vector latched by microcode (R86). -/
inductive EntryReq where
  | undefinedMajor (major : BitVec 7)
  | undefinedMinor (major : BitVec 7) (minor : BitVec 4)
  | mapEntryInvalid (index : BitVec 9)
  | fetchFault
  | latched
  deriving DecidableEq, Repr

/-- The commands: one constructor for each row of the table. -/
inductive Instr where
  /-- MICROWORD_ISSUE (R64): a sequencer issues one checked microword whose fields drive every unit and form the next address. -/
  | microwordIssue (q : SeqId)
  /-- SCRATCH_READ_RETURN (R64): scratch read data issued three cycles earlier arrives in MEMD and MEMRDY sets. -/
  | scratchReadReturn (q : SeqId)
  /-- PRODUCT_LANDING (R165): a multiplier product lands in MRH:MRL exactly 4 cc after issue, accumulating for MULA. -/
  | productLanding (q : SeqId)
  /-- POOL_LANDING (R212): a pool operation lands, writing POOLR, destinations, flags and FPC and possibly setting a pending FP trap. -/
  | poolLanding (q : SeqId)
  /-- PAIR (R146): a format-1 word executes its two short operations together on the old state and merges flags. -/
  | pair (q : SeqId) (w : Word)
  /-- LDB (R153): loads a byte through a segment into B[RD]. -/
  | ldb (q : SeqId) (f : FormR)
  /-- STB (R153): stores B[RD] as a byte through a segment. -/
  | stb (q : SeqId) (f : FormR)
  /-- LDH (R153): loads a half through a segment into H[RD]. -/
  | ldh (q : SeqId) (f : FormR)
  /-- STH (R153): stores H[RD] through a segment. -/
  | sth (q : SeqId) (f : FormR)
  /-- LDW (R153): loads a word through a segment into W[RD]. -/
  | ldw (q : SeqId) (f : FormR)
  /-- STW (R153): stores W[RD] through a segment. -/
  | stw (q : SeqId) (f : FormR)
  /-- LDA (R153): loads a half through a segment into A[RD]. -/
  | lda (q : SeqId) (f : FormR)
  /-- STA (R153): stores A[RD] through a segment. -/
  | sta (q : SeqId) (f : FormR)
  /-- MOVL (R154): moves between register views or loads short constants by MINOR. -/
  | movl (q : SeqId) (f : FormRI)
  /-- MOVX (R155): reads or writes a numbered special register under privilege rules. -/
  | movx (q : SeqId) (f : FormRI)
  /-- SLD (R133): privileged load of a checked segment descriptor into a segment register. -/
  | sld (q : SeqId) (f : FormR)
  /-- SST (R156): privileged store of a segment descriptor to memory. -/
  | sst (q : SeqId) (f : FormR)
  /-- LEA (R157): forms an address into an A register without access. -/
  | lea (q : SeqId) (f : FormRI)
  /-- PUSH (R157): stores a register view through S7 below SP and decrements SP. -/
  | push (q : SeqId) (minor : BitVec 4) (rd : BitVec 5)
  /-- POP (R157): loads a register view through S7 at SP and increments SP. -/
  | pop (q : SeqId) (minor : BitVec 4) (rd : BitVec 5)
  /-- ADD_W (R158): adds W[RS] to W[RD]. -/
  | addW (q : SeqId) (rd rs : BitVec 5)
  /-- ADC_W (R158): adds W[RS] and C to W[RD]. -/
  | adcW (q : SeqId) (rd rs : BitVec 5)
  /-- SUB_W (R158): subtracts W[RS] from W[RD]. -/
  | subW (q : SeqId) (rd rs : BitVec 5)
  /-- SBC_W (R158): subtracts W[RS] and C from W[RD]. -/
  | sbcW (q : SeqId) (rd rs : BitVec 5)
  /-- CMP_W (R158): compares W[RD] with W[RS]. -/
  | cmpW (q : SeqId) (rd rs : BitVec 5)
  /-- AND_W (R158): ands W[RS] into W[RD]. -/
  | andW (q : SeqId) (rd rs : BitVec 5)
  /-- OR_W (R158): ors W[RS] into W[RD]. -/
  | orW (q : SeqId) (rd rs : BitVec 5)
  /-- XOR_W (R158): xors W[RS] into W[RD]. -/
  | xorW (q : SeqId) (rd rs : BitVec 5)
  /-- ANDN_W (R158): writes W[RD] and not W[RS]. -/
  | andnW (q : SeqId) (rd rs : BitVec 5)
  /-- NOT_W (R158): writes not W[RS] to W[RD]. -/
  | notW (q : SeqId) (rd rs : BitVec 5)
  /-- NEG_W (R158): writes 0 minus W[RS] to W[RD]. -/
  | negW (q : SeqId) (rd rs : BitVec 5)
  /-- SHL_W (R158): shifts W[RD] left by an immediate or register count. -/
  | shlW (q : SeqId) (rd : BitVec 5) (n : ShiftCount)
  /-- SHR_W (R158): shifts W[RD] right logically. -/
  | shrW (q : SeqId) (rd : BitVec 5) (n : ShiftCount)
  /-- ASR_W (R158): shifts W[RD] right arithmetically. -/
  | asrW (q : SeqId) (rd : BitVec 5) (n : ShiftCount)
  /-- ROL_W (R158): rotates W[RD] left. -/
  | rolW (q : SeqId) (rd : BitVec 5) (n : ShiftCount)
  /-- ROR_W (R158): rotates W[RD] right. -/
  | rorW (q : SeqId) (rd : BitVec 5) (n : ShiftCount)
  /-- SHL_H (R158): shifts H[RD] left. -/
  | shlH (q : SeqId) (rd : BitVec 5) (n : ShiftCount)
  /-- SHR_H (R158): shifts H[RD] right logically. -/
  | shrH (q : SeqId) (rd : BitVec 5) (n : ShiftCount)
  /-- ASR_H (R158): shifts H[RD] right arithmetically. -/
  | asrH (q : SeqId) (rd : BitVec 5) (n : ShiftCount)
  /-- ROL_H (R158): rotates H[RD] left. -/
  | rolH (q : SeqId) (rd : BitVec 5) (n : ShiftCount)
  /-- ROR_H (R158): rotates H[RD] right. -/
  | rorH (q : SeqId) (rd : BitVec 5) (n : ShiftCount)
  /-- ADD_H (R158): adds H[RS] to H[RD]. -/
  | addH (q : SeqId) (rd rs : BitVec 5)
  /-- ADC_H (R158): adds H[RS] and C to H[RD]. -/
  | adcH (q : SeqId) (rd rs : BitVec 5)
  /-- SUB_H (R158): subtracts H[RS] from H[RD]. -/
  | subH (q : SeqId) (rd rs : BitVec 5)
  /-- SBC_H (R158): subtracts H[RS] and C from H[RD]. -/
  | sbcH (q : SeqId) (rd rs : BitVec 5)
  /-- CMP_H (R158): compares H[RD] with H[RS]. -/
  | cmpH (q : SeqId) (rd rs : BitVec 5)
  /-- AND_H (R158): ands H[RS] into H[RD]. -/
  | andH (q : SeqId) (rd rs : BitVec 5)
  /-- OR_H (R158): ors H[RS] into H[RD]. -/
  | orH (q : SeqId) (rd rs : BitVec 5)
  /-- XOR_H (R158): xors H[RS] into H[RD]. -/
  | xorH (q : SeqId) (rd rs : BitVec 5)
  /-- NOT_H (R158): writes not H[RS] to H[RD]. -/
  | notH (q : SeqId) (rd rs : BitVec 5)
  /-- NEG_H (R158): writes 0 minus H[RS] to H[RD]. -/
  | negH (q : SeqId) (rd rs : BitVec 5)
  /-- BREV_W (R158): bit-reverses W[RS] into W[RD]. -/
  | brevW (q : SeqId) (rd rs : BitVec 5)
  /-- BREV_H (R158): bit-reverses H[RS] into H[RD]. -/
  | brevH (q : SeqId) (rd rs : BitVec 5)
  /-- PAR_W (R158): writes the parity of W[RS] to B[RD]. -/
  | parW (q : SeqId) (rd rs : BitVec 5)
  /-- PAR_H (R158): writes the parity of H[RS] to B[RD]. -/
  | parH (q : SeqId) (rd rs : BitVec 5)
  /-- SWAPB_H (R158): exchanges the bytes of H[RS] into H[RD]. -/
  | swapbH (q : SeqId) (rd rs : BitVec 5)
  /-- SEXT_H (R158): sign-extends B[RS] into H[RD]. -/
  | sextH (q : SeqId) (rd rs : BitVec 5)
  /-- ZEXT_H (R158): zero-extends B[RS] into H[RD]. -/
  | zextH (q : SeqId) (rd rs : BitVec 5)
  /-- SEXT_W (R158): sign-extends H[RS] into W[RD]. -/
  | sextW (q : SeqId) (rd rs : BitVec 5)
  /-- ZEXT_W (R158): zero-extends H[RS] into W[RD]. -/
  | zextW (q : SeqId) (rd rs : BitVec 5)
  /-- CLZ_W (R158): counts the leading zeros of W[RS] into B[RD]. -/
  | clzW (q : SeqId) (rd rs : BitVec 5)
  /-- CRCI (R160): initialises a CRC running value in W[RD] from CRCINIT. -/
  | crci (q : SeqId) (rd : BitVec 5)
  /-- CRCB_W (R160): steps the CRC in W[RD] by one byte. -/
  | crcbW (q : SeqId) (rd rs : BitVec 5)
  /-- CRCH (R160): steps the CRC in W[RD] by the two bytes of H[RS]. -/
  | crch (q : SeqId) (rd rs : BitVec 5)
  /-- CRCW (R160): steps the CRC in W[RD] by the four bytes of W[RS]. -/
  | crcw (q : SeqId) (rd rs : BitVec 5)
  /-- CRCF (R160): finishes a CRC with reflection and xor-out. -/
  | crcf (q : SeqId) (rd rs : BitVec 5)
  /-- ADDI_H (R158): adds a sign-extended immediate to H[RD]. -/
  | addiH (q : SeqId) (rd : BitVec 5) (imm : Byte)
  /-- ADDI_W (R158): adds a sign-extended immediate to W[RD]. -/
  | addiW (q : SeqId) (rd : BitVec 5) (imm : Byte)
  /-- CMPI_H (R158): compares H[RD] with a sign-extended immediate. -/
  | cmpiH (q : SeqId) (rd : BitVec 5) (imm : Byte)
  /-- CMPI_W (R158): compares W[RD] with a sign-extended immediate. -/
  | cmpiW (q : SeqId) (rd : BitVec 5) (imm : Byte)
  /-- JMP (R161): jumps to an immediate offset in S0. -/
  | jmp (q : SeqId) (t : Half)
  /-- JCC (R162): jumps when the condition selected by MINOR holds. -/
  | jcc (q : SeqId) (minor : BitVec 4) (t : Half)
  /-- CALL (R161): pushes the return PC and jumps to an immediate target. -/
  | call (q : SeqId) (t : Half)
  /-- RET (R161): pops the PC from the stack. -/
  | ret (q : SeqId)
  /-- LOOP (R161): decrements B[RD] and branches while it is nonzero. -/
  | loop (q : SeqId) (rd : BitVec 5) (imm : Byte)
  /-- GATE (R239): system call entering vector 32 + n with a full frame. -/
  | gate (q : SeqId) (imm : Byte)
  /-- RETS (R240): privileged return popping a short or full frame, or the ledge frame when DBL is set. -/
  | rets (q : SeqId)
  /-- TRAP (R239): s2-style call entering vector 48 + n with the short frame. -/
  | trap (q : SeqId) (imm : Byte)
  /-- JMPA (R161): jumps to A[RS]. -/
  | jmpa (q : SeqId) (rs : BitVec 5)
  /-- CALLA (R161): pushes the return PC and jumps to A[RS]. -/
  | calla (q : SeqId) (rs : BitVec 5)
  /-- MUL (R164): issues a product of RS and RX into MRH:MRL. -/
  | mul (q : SeqId) (minor : BitVec 4) (rs rx : BitVec 5)
  /-- MULA (R164): issues a product that accumulates into MRH:MRL. -/
  | mula (q : SeqId) (minor : BitVec 4) (rs rx : BitVec 5)
  /-- DIV (R219): issues an integer division on the pool divider. -/
  | div (q : SeqId) (minor : BitVec 4) (rd rs rx : BitVec 5)
  /-- REM (R219): issues an integer remainder on the pool divider. -/
  | rem (q : SeqId) (minor : BitVec 4) (rd rs rx : BitVec 5)
  /-- FADD (R220): issues a floating-point add. -/
  | fadd (q : SeqId) (minor : BitVec 4) (rd rs rx : BitVec 5)
  /-- FSUB (R220): issues a floating-point subtract. -/
  | fsub (q : SeqId) (minor : BitVec 4) (rd rs rx : BitVec 5)
  /-- FMUL (R220): issues a floating-point multiply. -/
  | fmul (q : SeqId) (minor : BitVec 4) (rd rs rx : BitVec 5)
  /-- FDIV (R220): issues a floating-point divide. -/
  | fdiv (q : SeqId) (minor : BitVec 4) (rd rs rx : BitVec 5)
  /-- FSQRT (R220): issues a floating-point square root. -/
  | fsqrt (q : SeqId) (minor : BitVec 4) (rd rs rx : BitVec 5)
  /-- FMA (R220): issues a fused multiply-add rounded once. -/
  | fma (q : SeqId) (minor : BitVec 4) (rd rs rx : BitVec 5)
  /-- FCMP (R226): compares two floating-point values setting flags and T. -/
  | fcmp (q : SeqId) (minor : BitVec 4) (rd rs rx : BitVec 5)
  /-- FCVT (R228): converts between floating-point and integer types. -/
  | fcvt (q : SeqId) (minor : BitVec 4) (rd rs rx : BitVec 5)
  /-- FMINMAX (R227): selects minimum, maximum, minimumNumber or maximumNumber. -/
  | fminmax (q : SeqId) (minor : BitVec 4) (rd rs rx : BitVec 5)
  /-- FCLASS (R229): writes the one-hot class mask of a floating-point value. -/
  | fclass (q : SeqId) (minor : BitVec 4) (rd rs rx : BitVec 5)
  /-- FBAR (R233): waits until no pool operation is in flight, then retires. -/
  | fbar (q : SeqId)
  /-- FETCH (R186): checks and issues one tagged read from a window into own-gallery scratch, binding a staging line if one matches. -/
  | fetch (q : SeqId) (v : Bool) (f : FormS)
  /-- PUT (R186): checks and issues one tagged write from own-gallery scratch to a window. -/
  | put (q : SeqId) (v : Bool) (f : FormS)
  /-- WAITT (R191): holds until XCNT is at most n, then reports and clears XFAIL. -/
  | waitt (q : SeqId) (f : FormRI)
  /-- COPY (R192): starts or resumes a byte-ordered copy between segments. -/
  | copy (q : SeqId) (v : Bool) (f : FormS)
  /-- SCAN (R193): starts or resumes a search for a byte in or out of a 32-byte class. -/
  | scan (q : SeqId) (v : Bool) (f : FormS)
  /-- CRCS (R194): starts or resumes a CRC over a byte range. -/
  | crcs (q : SeqId) (v : Bool) (f : FormS)
  /-- MATCH (R195): starts or resumes a common-prefix comparison of two ranges. -/
  | matchS (q : SeqId) (f : FormS)
  /-- MATCH_F (R195): starts or resumes a pattern search of up to 32 bytes. -/
  | matchF (q : SeqId) (f : FormS)
  /-- HASHS (R196): starts or resumes insertion of 4-byte window offsets into a hash table. -/
  | hashs (q : SeqId) (v : Bool) (f : FormS)
  /-- FILT (R198): starts or resumes a record filter under a descriptor. -/
  | filt (q : SeqId) (v : Bool) (f : FormS)
  /-- DGST_P (R287): starts or resumes pushing bytes into the context's digest session. -/
  | dgstP (q : SeqId) (f : FormS)
  /-- DGST_OPEN (R286): dGST.C operation opening a digest session. -/
  | dgstOpen (q : SeqId) (f : FormS)
  /-- DGST_FINAL (R286): dGST.C operation writing the result and closing the session. -/
  | dgstFinal (q : SeqId) (f : FormS)
  /-- DGST_CHECK (R290): dGST.C operation comparing the result with a reference through the comparator. -/
  | dgstCheck (q : SeqId) (f : FormS)
  /-- DGST_SAVE (R289): dGST.C operation writing the session's state image. -/
  | dgstSave (q : SeqId) (f : FormS)
  /-- DGST_LOAD (R289): dGST.C operation opening a session from a state image. -/
  | dgstLoad (q : SeqId) (f : FormS)
  /-- DGST_ABORT (R286): dGST.C operation abandoning the session. -/
  | dgstAbort (q : SeqId) (f : FormS)
  /-- FILLS (R200): starts or resumes filling a range with a byte or 4-byte pattern. -/
  | fills (q : SeqId) (v : Bool) (f : FormS)
  /-- CMPS (R201): starts or resumes a comparison of two ranges, constant-time under CT. -/
  | cmps (q : SeqId) (v : Bool) (f : FormS)
  /-- STREAM_STEP (R175): one step of a long instruction checks, moves or compares up to 32 bytes, debits and advances progress. -/
  | streamStep (q : SeqId)
  /-- TRANSFER_RETIRE (R189): a FETCH or PUT transfer retires in issue order, updating XCNT and XFAIL. -/
  | transferRetire (ctx : Half)
  /-- RUN_AHEAD_START (R202): after THRESH waiting cycles the sequencer starts shadow execution past the waiting instruction. -/
  | runAheadStart (q : SeqId)
  /-- SHADOW_INSTRUCTION (R203): one permitted instruction executes on shadow state during run-ahead. -/
  | shadowInstruction (q : SeqId) (i : ShadowInstr)
  /-- LINE_AGE_EXPIRY (R208): an unbound staging line reaching RACTL.AGE gallery ticks is released. -/
  | lineAgeExpiry (g : GalId) (line : Fin 16)
  /-- HOLD (R168): attempts to lock a word of a type-6 segment and read it. -/
  | hold (q : SeqId) (f : FormR)
  /-- FREE (R168): writes a held word and releases its lock. -/
  | free (q : SeqId) (f : FormR)
  /-- YIELD (R44): parks the sequencer until its next gallery tick. -/
  | yield (q : SeqId)
  /-- WDOG (R250): privileged reload of the sequencer watchdog. -/
  | wdog (q : SeqId)
  /-- STIM (R381): privileged stimulus pulse emitting a STIM trace packet when accepted. -/
  | stim (q : SeqId) (imm : Byte)
  /-- EVT_PUB (R291): privileged publish of one count on an event channel. -/
  | evtPub (q : SeqId) (ch : Byte)
  /-- EVT_TAKE (R296): privileged take of one pending count of a subscribed channel. -/
  | evtTake (q : SeqId) (ch : Byte)
  /-- EVT_CNT (R296): privileged read of a channel's pending count. -/
  | evtCnt (q : SeqId) (rd : BitVec 5) (ch : Byte)
  /-- WAITE (R170): privileged wait for a pending count on a channel. -/
  | waite (q : SeqId) (ch : Byte)
  /-- WAITE_T (R170): privileged wait for a match of an own-gallery timer. -/
  | waiteT (q : SeqId) (imm : Byte)
  /-- WAIT_END (R170): a waiting WAITE or WAITE.T ends on its event, BUDX, an interrupt, a halt or an unbind request. -/
  | waitEnd (q : SeqId)
  /-- BRK (R372): raises BREAK, or halts the sequencer when BRKHALT is set. -/
  | brk (q : SeqId) (k : Half)
  /-- HALT (R167): privileged stop of issue until work arrives or a BOUND cause is pending. -/
  | halt (q : SeqId)
  /-- HALT_WAKE (R167): a waiting HALT retires when the prefetch slot fills or a BOUND cause appears. -/
  | haltWake (q : SeqId)
  /-- SETML (R242): privileged change of the mask level from the next boundary. -/
  | setml (q : SeqId) (imm : Byte)
  /-- EXCEPTION_ENTRY (R237): a fault, call or trap pushes a frame on the runtime stack and enters its vector handler. -/
  | exceptionEntry (q : SeqId) (r : EntryReq)
  /-- FPTRAP_ENTRY (R231): at a boundary with FPTD registered the sequencer enters vector 6. -/
  | fptrapEntry (q : SeqId)
  /-- UNBIND_REQUEST (R404): at a boundary an unbind request saves and unbinds the bound context for a squeeze or forced close. -/
  | unbindRequest (q : SeqId)
  /-- DEBUG_HALT (R364): at a boundary a halt request stops the sequencer after landing in-flight operations. -/
  | debugHalt (q : SeqId)
  /-- DEFERRED_HALT_FORCED (R368): a halt deferred by a lock is forced after 64 retired instructions, breaking the lock. -/
  | deferredHaltForced (q : SeqId)
  /-- TICK_YIELD (R45): at a boundary with BUDX set the context parks until the next gallery tick. -/
  | tickYield (q : SeqId)
  /-- INTERRUPT_ENTRY (R242): at a boundary the highest pending interrupt above ML is acknowledged and entered. -/
  | interruptEntry (q : SeqId)
  /-- TICK_ACKNOWLEDGEMENT (R244): at a boundary the Aferset service acknowledges a tick, reloads the watchdog and may switch context. -/
  | tickAcknowledgement (q : SeqId) (switchTo : Bool)
  /-- CYCLE_BUDGET_EXHAUSTED (R45): cYCLEFT reaching 0 asserts BUDX. -/
  | cycleBudgetExhausted (q : SeqId)
  /-- BUDGET_STALL (R46): a sequencer not parked 256 cc after BUDX, or with TDEBT at 511, stops issuing until its next tick. -/
  | budgetStall (q : SeqId)
  /-- SEQUENCER_WATCHDOG_EXPIRY (R250): wDCTL.COUNT reaching 0 causes third fault 0x4. -/
  | sequencerWatchdogExpiry (q : SeqId)
  /-- REFERENCE_TICK (R42): the tick generator starts a reference tick, incrementing TICKNUM. -/
  | referenceTick (grant hold : BitVec 24)
  /-- PLANT_STALE (R54): a die or package node without a sample for 64 reference ticks sets PLANTST.STALE. -/
  | plantStale
  /-- TEMPERATURE_SAMPLE (R54): a temperature sample arrives on pw_* for a die, package or enclosure node. -/
  | temperatureSample (src : BitVec 2) (temp : BitVec 12)
  /-- SCRUB_REWRITE (R114): a corrected single-bit error is rewritten within 2 ticks. -/
  | scrubRewrite (q : SeqId) (isMap : Bool) (addr : BitVec 12)
  /-- CONTROL_STORE_REPAIR (R115): a double-bit scrub error is rewritten from the authenticated installed copy. -/
  | controlStoreRepair (q : SeqId) (isMap : Bool) (addr : BitVec 12) (tag : CmpPair)
  /-- LEDGER_AUDIT (R58): the ledger evaluates every invariant on its snapshot. -/
  | ledgerAudit
  /-- LEDGER_RECOUNT (R60): the ledger finishes rebuilding its terms and resumes audits. -/
  | ledgerRecount
  /-- GALLERY_TICK_START (R44): a gallery tick starts: budgets and token shares reload, locks break, parked sequencers resume. -/
  | galleryTickStart (g : GalId)
  /-- QUANTUM_EXPIRY (R336): a context that held its sequencer QUANTUM ticks with the slot occupied parks at its next yield. -/
  | quantumExpiry (q : SeqId)
  /-- SQUEEZE_DEADLINE (R349): dEADLEFT reaching 0 sends unbind requests to sequencers still holding contexts. -/
  | squeezeDeadline (g : GalId)
  /-- REHOMING (R269): the MP moves a pre-empted or fenced gallery's context and private segments to another gallery. -/
  | rehoming (ctx : Half) (h : Option GalId) (x : MpXfer)
  /-- FABRIC_REQUEST (R351): a fabric request reaches a gallery and is served, retried or answered FENCED by its state. -/
  | fabricRequest (q : SeqId)
  /-- RETRY_REPEAT (R352): an instruction answered RETRY is repeated at its boundary at least 64 cc later. -/
  | retryRepeat (q : SeqId)
  /-- SCRATCH_ECC_WRITEBACK (R253): a corrected scratch codeword is written back in the bank's next idle write cycle. -/
  | scratchEccWriteback (g : GalId) (bank : Fin 16)
  /-- RETENTION_ENTRY (R260): a bank with RET set enters retention once no access or transfer targets it. -/
  | retentionEntry (g : GalId) (bank : Fin 16)
  /-- BANK_WAKE (R261): a bank finishes its 2 µs wake and serves held accesses. -/
  | bankWake (g : GalId) (bank : Fin 16)
  /-- RUNTIME_BLOCK_LOAD (R262): at word 0 the microcode loads runtime S0, S7, SP and VBR from the runtime block. -/
  | runtimeBlockLoad (q : SeqId)
  /-- WORK_DESCRIPTOR (R280): an accepted work descriptor lands in a prefetch slot and is checked against its context. -/
  | workDescriptor (d : BitVec 256)
  /-- WORK_RECALL (R281): a wk_recall pulse returns a gallery's unbound prefetched items. -/
  | workRecall (g : GalId)
  /-- COMPLETION_RECORD (R282): a completion record leaves the FIFO on cp_* when the chip accepts it. -/
  | completionRecord
  /-- MEDIA_REQUEST_ISSUE (R271): a waiting media request is issued once its tag, credits and reservation are held. -/
  | mediaRequestIssue (g : GalId) (tag : Fin 1024)
  /-- CREDIT_GRANT (R272): the chip grants or returns a request, read-data or write-data credit. -/
  | creditGrant (g : GalId) (k : CreditKind)
  /-- READ_BEAT (R274): a read beat arrives and its bytes are written to their destination. -/
  | readBeat (g : GalId) (tag : Fin 1024) (nb : BitVec 6) (data : BitVec 256)
  /-- WRITE_BEAT (R274): the channel sends one write beat when it holds a write-data credit. -/
  | writeBeat (g : GalId)
  /-- MEDIA_RESPONSE (R275): a response resolves a tagged transfer's outcome or goes to the sump. -/
  | mediaResponse (g : GalId) (tag : Fin 1024) (st : BitVec 2) (dlen : BitVec 21)
  /-- MEDIA_TIMEOUT (R273): a transfer without response after TMO gallery ticks retires ERROR and orphans its tag. -/
  | mediaTimeout (g : GalId) (tag : Fin 1024)
  /-- DIGEST_GRANT (R288): a waiting session gains the digest engine after the holder yields. -/
  | digestGrant
  /-- DIGEST_TRANSACTION_DONE (R284): a digest-port transaction ends OK or ERROR. -/
  | digestTransactionDone (err : Bool) (data : BitVec 512)
  /-- DIGEST_TRANSACTION_TIMEOUT (R284): a transaction not ended after TXTMO fc is aborted and the session takes ERR PORT. -/
  | digestTransactionTimeout
  /-- COMPARATOR_ANSWER (R290): the comparator pair sampled with dg_cmp_vld gives equal, not equal or glitch. -/
  | comparatorAnswer (p : CmpPair)
  /-- COMPARATOR_TIMEOUT (R290): dg_cmp_vld absent for CMPTMO fc counts the comparison as a glitch. -/
  | comparatorTimeout
  /-- EVENT_INPUT_EDGE (R298): an edge on ev_in is counted and published as one count. -/
  | eventInputEdge (i : Fin 64) (level : Bool)
  /-- EVENT_INPUT_STUCK (R299): an input held active through STUCKT boundaries sets STUCK. -/
  | eventInputStuck (i : Fin 64)
  /-- COUNT_DELIVERY (R293): a channel count reaches its consumer slot, pin, timer capture or LUT input. -/
  | countDelivery (ch : Byte)
  /-- LUT_CELL_EVALUATION (R302): a LUT cell's output changes and publishes a count on a selected edge. -/
  | lutCellEvaluation (j : Fin 64)
  /-- EVENT_OUTPUT_PULSE (R300): an ev_out pin emits one pending pulse of PW fc high and low. -/
  | eventOutputPulse (i : Fin 64)
  /-- TIMER_MATCH (R308): a timer count equals CMP, setting MATCH, publishing and adding INTV under AUTO. -/
  | timerMatch (g : GalId) (t : Fin 8)
  /-- TIMER_CTL_WRITE (R305): a write of timer CTL starts, arms or stops counting and is refused for AUTO in SERVICE. -/
  | timerCtlWrite (g : GalId) (t : Fin 8) (v : Word)
  /-- TIMER_COUNT_WRITE (R305): a write of COUNT is accepted only while EN is 0. -/
  | timerCountWrite (g : GalId) (t : Fin 8) (high : Bool) (v : Word)
  /-- TIMER_CMP_WRITE (R306): a write of CMP is judged against COUNT for an immediate, later or missed match. -/
  | timerCmpWrite (g : GalId) (t : Fin 8) (high : Bool) (v : Word)
  /-- CAP_READ (R309): a read of CAP low clears CAPF and latches the high word. -/
  | capRead (g : GalId) (t : Fin 8)
  /-- TICKNUML_READ (R42): a read of TICKNUML latches NUMH for the next TICKNUMH read. -/
  | ticknumlRead
  /-- TICKCFG_WRITE (R41): a write of TICKCFG or TGUARD is held pending until the next reference tick boundary. -/
  | tickcfgWrite (guard : Bool) (v : Word)
  /-- PHASE_WRITE (R43): a write of a gallery PHASE takes effect at the next reference tick boundary. -/
  | phaseWrite (g : GalId) (v : Word)
  /-- LEDGVAL_WRITE (R61): a maintenance write of a ledger term suspends audits, or is refused outside START, TEST and RECOVERY. -/
  | ledgvalWrite (v : Word)
  /-- REARM (R61): writing LEDGCTL.REARM starts a recount and resumes audits. -/
  | rearm
  /-- BANKOWN_WRITE (R259): a bank-owner write changes each field only if made by its owner or the MP. -/
  | bankownWrite (g : GalId) (high : Bool) (v : Word) (a : Agent)
  /-- BANKRET_WRITE (R261): a RET bit write by the bank owner requests retention or wakes the bank. -/
  | bankretWrite (g : GalId) (v : Word) (a : Agent)
  /-- RTBASE_WRITE (R262): a write of RTBASE makes waiting sequencers retry their runtime block. -/
  | rtbaseWrite (g : GalId) (v : Word)
  /-- IRQSET_WRITE (R241): a write of IRQSET sets pending software interrupts. -/
  | irqsetWrite (q : SeqId) (v : Word)
  /-- MCFAULT_RESTART (R94): writing RESTART after a microfault resets the sequencer and starts it at word 0. -/
  | mcfaultRestart (q : SeqId)
  /-- CHSUB_WRITE (R294): a subscription write names a channel's consumer or is refused with SUBERR. -/
  | chsubWrite (n : Byte) (v : Word)
  /-- LUTCTL_WRITE (R304): a LUT function write takes effect or is refused while a conserving cell holds counts. -/
  | lutctlWrite (j : Fin 64) (v : Word)
  /-- DBGCTL_HALT (R364): writing DBGCTL.HALT requests a halt of the sequencer. -/
  | dbgctlHalt (q : SeqId)
  /-- DBGCTL_RESUME (R366): writing DBGCTL.RESUME releases the halted sequencer. -/
  | dbgctlResume (q : SeqId)
  /-- EWDKICK (R380): an MP write of 0x5A5A reloads the engine watchdog. -/
  | ewdkick (v : Word) (a : Agent)
  /-- DOORBELL (R315): a doorbell write commits a mailbox message, or is answered BUSY by hardware. -/
  | doorbell (high : Bool) (v : Word)
  /-- REGISTER_WRITE (R10): a host-port write to a register without its own row acts by its field access codes. -/
  | registerWrite (addr : BitVec 21) (v : Word)
  /-- ENGINE_WATCHDOG_EXPIRY (R380): the engine watchdog reaching 0 warm-resets the MP and may fall back to bank 0. -/
  | engineWatchdogExpiry
  /-- MP_WARM_RESET_RETURN (R319): the returning MP answers busy mailboxes INTERNAL and finishes squeezes and re-homings. -/
  | mpWarmResetReturn
  /-- ENG_INFO (R324): returns engine identity, configuration and versions. -/
  | engInfo (m : MbId)
  /-- ENG_STATUS (R324): returns engine status registers. -/
  | engStatus (m : MbId)
  /-- ENG_STATE (R325): performs a permitted engine state transition. -/
  | engState (m : MbId)
  /-- WIN_OPEN (R326): opens the maintenance window. -/
  | winOpen (m : MbId)
  /-- WIN_CLOSE (R326): closes the maintenance window. -/
  | winClose (m : MbId)
  /-- UCODE_STAGE (R102): copies and stages a control-store image. -/
  | ucodeStage (m : MbId) (x : MpXfer)
  /-- UCODE_VERIFY (R104): authenticates the staged images and checks the set a commit would install. -/
  | ucodeVerify (m : MbId) (tags : List CmpPair)
  /-- UCODE_COMMIT (R108): writes the verified or installed set into target galleries one at a time. -/
  | ucodeCommit (m : MbId) (tags : List CmpPair) (bad : CommitCourse)
  /-- MAP_LOAD (R102): copies and stages a dispatch-map image. -/
  | mapLoad (m : MbId) (x : MpXfer)
  /-- FW_STAGE (R116): authenticates firmware into bank 1. -/
  | fwStage (m : MbId) (x : MpXfer) (tag : CmpPair)
  /-- FW_SWITCH (R117): replies then warm-resets the MP into the named firmware bank. -/
  | fwSwitch (m : MbId)
  /-- PATCH_LOAD (R119): authenticates and installs a complete MP patch set. -/
  | patchLoad (m : MbId) (x : MpXfer) (tag : CmpPair)
  /-- GAL_SQUEEZE (R349): drains and seals a gallery by a deadline, re-homing its contexts. -/
  | galSqueeze (m : MbId)
  /-- GAL_RELEASE (R330): rewrites runtime blocks and returns a squeezed or fenced gallery to service. -/
  | galRelease (m : MbId)
  /-- GAL_FENCE (R350): fences a gallery at once. -/
  | galFence (m : MbId)
  /-- GAL_POWER_OFF (R348): drains a squeezed or fenced gallery and removes both its domains. -/
  | galPowerOff (m : MbId)
  /-- GAL_POWER_RETAIN (R348): puts every bank in retention and removes the gallery's logic domain. -/
  | galPowerRetain (m : MbId)
  /-- GAL_POWER_ON (R348): raises a gallery's domains and resets its logic, leaving it SQUEEZED. -/
  | galPowerOn (m : MbId)
  /-- GAL_QUERY (R329): returns a gallery's state and registers. -/
  | galQuery (m : MbId)
  /-- CTX_OPEN (R332): opens a context entry and writes its initial save area. -/
  | ctxOpen (m : MbId) (x : MpXfer)
  /-- CTX_CLOSE (R335): frees a context, forcing its item to FAILED(KILLED) with FORCE. -/
  | ctxClose (m : MbId)
  /-- SEG_BIND (R333): checks and writes a segment descriptor into an open context's save area. -/
  | segBind (m : MbId) (x : MpXfer)
  /-- PROG_LOAD (R334): copies a program into gallery scratch and returns its code descriptor. -/
  | progLoad (m : MbId) (x : MpXfer)
  /-- PROG_UNLOAD (R334): removes a program object not in use. -/
  | progUnload (m : MbId)
  /-- WORK_CFG (R336): sets the scheduling quantum and early save-area reads. -/
  | workCfg (m : MbId)
  /-- CTX_QUERY (R331): returns a context-table entry. -/
  | ctxQuery (m : MbId)
  /-- BUDGET_SET (R337): sets a gallery's allocation weight. -/
  | budgetSet (m : MbId)
  /-- PLANT_CFG (R337): writes selected plant and cost registers at the next reference tick boundary. -/
  | plantCfg (m : MbId)
  /-- HOLDUP_CFG (R337): writes HOLDCFG at the next reference tick boundary. -/
  | holdupCfg (m : MbId)
  /-- TICK_CFG (R337): writes the tick period and guard and rescales the thermal integration coefficients. -/
  | tickCfg (m : MbId)
  /-- EVT_SUB (R338): writes a channel subscription. -/
  | evtSub (m : MbId)
  /-- LUT_PROG (R338): programs a LUT cell and optionally clears FORCED. -/
  | lutProg (m : MbId)
  /-- TIMER_CFG (R338): writes a timer's COUNT, CMP, INTV and CTL. -/
  | timerCfg (m : MbId)
  /-- STAGGER (R338): sets gallery tick phases at the next reference tick boundary. -/
  | stagger (m : MbId)
  /-- BB_READ (R339): copies recorder records to buffer memory. -/
  | bbRead (m : MbId) (x : MpXfer)
  /-- BB_MARK (R339): writes a HOSTMARK record and optionally commits the staging ring. -/
  | bbMark (m : MbId)
  /-- TRACE_CFG (R339): writes the traced sequencers and trace control. -/
  | traceCfg (m : MbId)
  /-- DBG_ATTACH_CHALLENGE (R360): dBG_ATTACH phase 0 returns a fresh nonce. -/
  | dbgAttachChallenge (m : MbId)
  /-- DBG_ATTACH_RESPONSE (R360): dBG_ATTACH phase 1 authenticates the tag and attaches Lantern. -/
  | dbgAttachResponse (m : MbId) (tag : CmpPair)
  /-- DBG_DETACH (R370): detaches Lantern, resuming every sequencer and clearing breakpoints. -/
  | dbgDetach (m : MbId)
  /-- DBG_HALT (R364): requests halts of named sequencers and reports halted and deferred ones. -/
  | dbgHalt (m : MbId)
  /-- DBG_RESUME (R366): releases named halted sequencers. -/
  | dbgResume (m : MbId)
  /-- DBG_STEP_INSTRUCTION (R367): steps a halted sequencer by instructions. -/
  | dbgStepInstruction (m : MbId)
  /-- DBG_STEP_MICROWORD (R367): steps a halted sequencer by microwords. -/
  | dbgStepMicroword (m : MbId)
  /-- STEP_TIMEOUT (R367): a step not halted within 16 reference ticks answers TIMEOUT. -/
  | stepTimeout (q : SeqId)
  /-- DBG_BREAK_SET (R371): programs and enables a breakpoint unit. -/
  | dbgBreakSet (m : MbId)
  /-- DBG_BREAK_CLEAR (R371): disables a breakpoint unit. -/
  | dbgBreakClear (m : MbId)
  /-- DBG_PEEK (R374): reads registers without side effects. -/
  | dbgPeek (m : MbId)
  /-- DBG_POKE (R375): writes masked register bits through the debug master. -/
  | dbgPoke (m : MbId)
  /-- DBG_READMEM (R362): reads an engine memory space. -/
  | dbgReadmem (m : MbId) (x : MpXfer)
  /-- DBG_WRITEMEM (R362): writes an engine memory space, clearing CSVER for control-store writes. -/
  | dbgWritemem (m : MbId) (x : MpXfer)
  /-- DBG_XTRIG (R376): configures a rope's triggers and actions. -/
  | dbgXtrig (m : MbId)
  /-- DBG_REGS_READ (R363): reads the register image of a halted sequencer. -/
  | dbgRegsRead (m : MbId)
  /-- DBG_REGS_WRITE (R363): writes the register image of a halted sequencer. -/
  | dbgRegsWrite (m : MbId)
  /-- XT_IN_EDGE (R376): a rising xt_in edge arrives at a rope. -/
  | xtInEdge (r : Fin 8)
  /-- ROPE_PULSE_END (R376): xt_out falls after 16 fc. -/
  | ropePulseEnd (r : Fin 8)
  /-- RECORD_COMMIT (R386): one staged record is committed to the non-volatile ring, spending one credit. -/
  | recordCommit
  /-- COMMIT_CREDIT_RISE (R386): commit credit rises by 1 every 2,048 sclk periods. -/
  | commitCreditRise
  /-- TRACE_PACKET (R383): one trace packet leaves the FIFO on tr_* when the chip takes it. -/
  | tracePacket
  /-- POWER_ON_RESET (R341): por_n rises and the engine starts CALIB. -/
  | powerOnReset (bist : Bool)
  /-- CALIB_COMPLETE (R341): clock measurement and domain raises finish and INIT begins. -/
  | calibComplete (mhz : BitVec 11) (ratio : BitVec 24)
  /-- INIT_COMPLETE (R341): the MP completes boot, sets READY and LOAD begins. -/
  | initComplete (bad : List BistFail)
  /-- LOAD_COMPLETE (R341): every gallery has been attempted and START begins with the tick generator. -/
  | loadComplete (failed : LoadCourse)
  /-- ENGINE_RESET (R353): eng_rst_n low resets everything outside PD34 and restarts from CALIB. -/
  | engineReset (lowFc : Nat)
  /-- DEBUG_RESET (R353): dbg_rst_n low clears always-on debug state, ropes and the Lantern attachment. -/
  | debugReset (lowFc : Nat)
  /-- PD_ACK (R346): a domain acknowledgement arrives and the domain is reset and released from isolation. -/
  | pdAck (d : Fin 40) (level : Bool)
  /-- PD_ACK_TIMEOUT (R346): a missing acknowledgement after ACKTMO sets PDERR and keeps the domain isolated. -/
  | pdAckTimeout (d : Fin 40)
  /-- PLW_ASSERT (R355): plw_n low starts last light, stopping admission and sequencers and ending transfers. -/
  | plwAssert
  /-- WRWAIT_EXPIRY (R355): reserved writes still unanswered WRWAIT µs after last light begins are retracted. -/
  | wrwaitExpiry
  /-- LAST_LIGHT_DONE (R355): writes and recorder commit done, LASTLIGHT is committed and gallery logic domains are lowered. -/
  | lastLightDone (elapsed : BitVec 12)
  /-- POWER_RETURN (R358): plw_n high after DONE without reset restores serving galleries and enters RECOVERY. -/
  | powerReturn (tags : List CmpPair)
  /-- REGISTER_READ (R10): a host-port read that performs an RC or RS side effect, or reaches reserved space, a closed window or a powered-down gallery and sets HOSTERR. -/
  | registerRead (addr : BitVec 21)
  /-- TIMER_INCREMENT (R305): a running gallery timer's prescaler runs out every PRE + 1 fc and COUNT advances by 1 modulo 2^48. -/
  | timerIncrement (g : GalId) (t : Fin 8)
  /-- SCLKRATIO_REMEASURE (R311): every 4,096 sclk periods while fclk runs, the engine re-measures SCLKRATIO.RATIO, overwriting any written value. -/
  | sclkratioRemeasure (ratio : BitVec 24)
  /-- VDD_RET_LOSS (R394): the retention rail vdd_ret falls below 0.50 V and retained banks lose their contents and check bits without any indication. -/
  | vddRetLoss (g : GalId)
  deriving DecidableEq, Repr

end Sys2Proof
end

