-- ==== Sys2Proof/Machine/State.lean ====
section
/-!
DEFINITION. The machine's state: every register, queue, buffer, counter, mode and pin that the spec gives the engine,
as plain data, and the queue of commands that wait. INVENTORY.md names the rule of each field.
-/

namespace Sys2Proof.Machine

open Sys2Proof

/-- Why the machine stops. Raised by ENGINE_RESET and DEBUG_RESET alone: a reset pulse shorter than 16 fc "has an
undefined extent and must not occur" (R393). Stopping is safe: nothing is claimed of such a pulse. -/
inductive Fault where
  /-- eng_rst_n or dbg_rst_n low for fewer than 16 fc (R393); safe. -/
  | resetPulseTooShort
  deriving DecidableEq, Repr

/-- Why a command has no meaning. -/
inductive Refusal where
  /-- The command of this mnemonic has no meaning yet; raised by exec's arms alone; safe. -/
  | notModelled (mnemonic : String)
  deriving DecidableEq, Repr

abbrev Out (σ : Type) := Host.Outcome σ Fault Refusal

/-! ### Memory -/

/-- Sparse bytes by address: addresses strictly rising, no zero byte listed; an unlisted address reads 0. -/
abbrev Memory := List (Nat × Byte)

/-! ### The sequencer -/

/-- CRCCFG, CRCPOLY, CRCINIT, CRCXOR (R128). -/
structure Crcp where
  cfg : Word := 0x000000E0
  poly : Word := 0x1EDC6F41
  init : Word := 0xFFFFFFFF
  xorout : Word := 0xFFFFFFFF
  deriving DecidableEq, Repr

/-- The program-visible registers and the runtime's copies (R121, R123). -/
structure Regs where
  b : Vector Byte 32 := Vector.replicate 32 0
  a : Vector Half 8 := Vector.replicate 8 0
  s : Vector Desc 8 := Vector.replicate 8 0
  s0r : Desc := 0
  s7r : Desc := 0
  pc : Half := 0
  sp : Half := 0
  spr : Half := 0
  mr : DWord := 0
  st : Half := 0x03C0
  fpc : Word := 0
  crc : Crcp := {}
  vbr : Half := 0
  ecause : Half := 0
  eaddr : Half := 0
  lsp : Byte := 0x40
  ctxid : Half := 0xFFFF
  deriving DecidableEq, Repr

/-- A scratch read on its way to MEMD: its data as read at issue, poisoned or not, segment and offset (R64, R77). -/
structure ReadPend where
  value : Word
  poisoned : Bool
  seg : BitVec 3
  off : Half
  deriving DecidableEq, Repr

/-- The head of the instruction queue (R79): its word, or the fault of its fetch (IRERR). -/
inductive Head where
  | empty
  | word (w : Word)
  | fault (vec : Nat) (cause : Byte)
  deriving DecidableEq, Repr

/-- A fabric request of microcode that waits for its answer (R351): a write carries its bytes. -/
structure FabReq where
  addr : Nat
  size : Nat
  data : Option (List Byte)
  seg : BitVec 3
  off : Half
  deriving DecidableEq, Repr

/-- The long instructions (R175). -/
inductive LongKind where
  | copy | scan | crcs | matchS | matchF | hashs | filt | dgst | fills | cmps
  deriving DecidableEq, Repr

/-- A chunk write of a long instruction, oldest first (R183). -/
structure ChunkW where
  rid : Nat
  len : Nat
  pushed : Nat
  outcome : Option (BitVec 3)
  deriving DecidableEq, Repr

/-- A long instruction in progress (R175): its fields; whether its class, pattern or descriptor has been latched, and
that table; the bytes its steps are ahead of the registers (window destinations, R183); the bytes of an unfinished record
(R198); Wd where it began or resumed (R200); a LONG chunk seen (R184); whether its stall is one on window data (R202); the
first unequal pair (R201); a push that was
discarded (R287). -/
structure LongOp where
  kind : LongKind
  v : Bool
  f : FormS
  loaded : Bool := false
  table : List Byte := []
  ahead : Nat := 0
  rest : List Byte := []
  base : Nat := 0
  chunks : List ChunkW := []
  longAt : Option (BitVec 3 × Half) := none
  starved : Bool := false
  differ : Option (Byte × Byte) := none
  lost : Bool := false
  deriving DecidableEq, Repr

/-- The microprogrammed controller (R63 to R97). `long` and `prog` are what STRM op 0x0C has loaded into the datapath, Ws, Wd,
Wx and Wp (R180); `ahead` holds the words of the instruction queue behind its head (R134); `disp` marks a dispatch of select 0
that has still to be made, in a pair chain or for a head that is not there yet (R65, R92), and `pairGo` that it has chosen the
pair path (R91); `ledgeSp` that frame pushes use the ledge (EXCT 0x13). -/
structure Micro where
  upc : BitVec 12 := 0
  next : BitVec 12 := 0
  stack : List (BitVec 12) := []
  cnt : BitVec 12 := 0
  t : Vector Half 8 := Vector.replicate 8 0
  crcacc : Word := 0
  uz : Bool := false
  uc : Bool := false
  un : Bool := false
  uv : Bool := false
  up : Bool := false
  ures : Half := 0
  memd : Word := 0
  memrdy : Bool := false
  reads : List ReadPend := []
  ueHeld : Option (BitVec 3 × Half) := none
  evrd : Word := 0
  segRes : EngAddr := 0
  segOff : Half := 0
  segCause : Byte := 0
  segSeg : BitVec 3 := 0
  vec : Option Nat := none
  head : Head := .empty
  ahead : List Word := []
  fpcMark : Half := 0
  fab : Option FabReq := none
  rsp : List Half := []
  long : Option LongOp := none
  prog : Vector Word 4 := Vector.replicate 4 0
  disp : Bool := false
  pairGo : Bool := false
  ledgeSp : Bool := false
  deriving DecidableEq, Repr

/-- Condition bits the units leave for CSEL (R88) that no other field holds. -/
structure Conds where
  segok : Bool := false
  segna : Bool := false
  lockok : Bool := false
  lockbusy : Bool := false
  mulland : Bool := false
  stimack : Bool := false
  retry : Bool := false
  fenced : Bool := false
  faberr : Bool := false
  step : Bool := false
  smatch : Bool := false
  slim : Bool := false
  sstall : Bool := false
  radecl : Bool := false
  rahit : Bool := false
  dgeq : Bool := false
  dggl : Bool := false
  slotret : Bool := false
  poolx : Bool := false
  divz : Bool := false
  poolgnt : Bool := false
  evovr : Bool := false
  deriving DecidableEq, Repr

/-- A product in flight (R165): the value to land and whether it accumulates (MULA). -/
structure Product where
  value : DWord
  acc : Bool
  deriving DecidableEq, Repr

/-- A pool operation in flight (R211, R213): what it will write when it lands. -/
structure PoolOp where
  result : Word
  dest : Option (Nat × BitVec 5)
  stMask : Half
  stVal : Half
  fp : Bool
  flags : BitVec 5
  divz : Option Bool
  pc : Half
  deriving DecidableEq, Repr

/-- One part of a control-store or map set (R98, R99); `boot` stands for the boot-ROM part (R113); `place` and `size` are those of
its image in the MPSTG region (R101). -/
structure ImgPart where
  kind : Byte := 0
  slot : Byte := 0
  imgver : Word := 0
  lic : Half := 0
  first : Nat := 0
  bindver : Word := 0
  words : List MicroWord := []
  entries : List (BitVec 12) := []
  boot : Bool := false
  place : Nat := 0
  size : Nat := 0
  deriving DecidableEq, Repr

/-- A staged, installed or committed set: at most one part of each kind (R102). -/
structure ImgSet where
  af : Option ImgPart := none
  lic : Option ImgPart := none
  afmap : Option ImgPart := none
  licmap : Option ImgPart := none
  deriving DecidableEq, Repr

/-- Control store and dispatch map of a sequencer: the set, whether a commit of it has completed, the words Lantern wrote since, and the
addresses whose stored code is correctable or uncorrectable (R93, R114). -/
structure Store where
  set : ImgSet := {}
  valid : Bool := false
  overW : List (Nat × MicroWord) := []
  overM : List (Nat × BitVec 12) := []
  ce : List Nat := []
  ue : List Nat := []
  mce : List Nat := []
  mue : List Nat := []
  deriving DecidableEq, Repr

/-- MCFAULT, CSECC, CSVER (R93, R94, R113). -/
structure CsRegs where
  mf : Bool := false
  field : BitVec 5 := 0
  cause : Byte := 0
  uaddr : BitVec 12 := 0
  ce : Byte := 0
  mce : Byte := 0
  ceaddr : BitVec 12 := 0
  csver : DWord := 0
  deriving DecidableEq, Repr

/-- BUDCYC, BUDTOK, the fraction accumulator, and the tokens debited while the context is bound (R44 to R48, R268). -/
structure Bud where
  stall : Bool := false
  budx : Bool := false
  cdebt : Nat := 0
  cycleft : Nat := 0
  tdebt : Nat := 0
  tokleft : Nat := 0
  frac : BitVec 12 := 0
  bound : Word := 0
  deriving DecidableEq, Repr

/-- EXCST, the interrupt registers, the watchdog, the latched trap address (R230, R241, R246, R250). -/
structure Exc where
  dbl : Bool := false
  origv : BitVec 6 := 0
  origcause : BitVec 11 := 0
  lspBefore : Byte := 0x40
  irqpend : Half := 0
  irqlvl0 : Word := 0
  irqlvl1 : Word := 0
  wdcount : Half := 0x0040
  wdperiod : Half := 0x0040
  trapAddr : Half := 0
  deriving DecidableEq, Repr

/-- The shadow copy on which run-ahead executes (R202). -/
structure Shadow where
  b : Vector Byte 32
  a : Vector Half 8
  st : BitVec 6
  pc : Half
  count : Nat
  deriving DecidableEq, Repr

/-- RACTL, RACNT and run-ahead (R202). -/
structure Ra where
  en : Bool := true
  age : Byte := 2
  maxl : BitVec 4 := 4
  thresh : BitVec 10 := 0x020
  issued : Byte := 0
  bound : Byte := 0
  decl : Byte := 0
  rel : Byte := 0
  shadow : Option Shadow := none
  deriving DecidableEq, Repr

/-- A subscription slot (R296). -/
structure EvSlot where
  v : Bool := false
  ovr : Bool := false
  pend : BitVec 4 := 0
  ch : Byte := 0
  deriving DecidableEq, Repr

/-- DBGCTL, DBGST and stepping (R364 to R372). `bpSkip` and `ubSkip` hold that the head instruction, or the next microword, has
already met its breakpoint or microbreak, so that it runs when the sequencer goes on (R366). -/
structure Dbg where
  brkhalt : Bool := false
  ubrken : Bool := false
  halted : Bool := false
  defer : Bool := false
  forced : Bool := false
  bpu : BitVec 3 := 0
  why : BitVec 3 := 0
  defcnt : BitVec 7 := 0
  brkcode : Half := 0
  steps : Nat := 0
  stepUnit : Bool := false
  bpSkip : Bool := false
  ubSkip : Bool := false
  rope : Option (Fin 8) := none
  deriving DecidableEq, Repr

/-- What asked for an unbind (R404). -/
inductive Unbind where
  | squeeze
  | close
  deriving DecidableEq, Repr

/-- The DGST.C operations (R199). -/
inductive DgOp where
  | open | final | check | save | load | abort
  deriving DecidableEq, Repr

/-- What a sequencer waits for inside an instruction; `pool`: that its divider operation lands (R212); `operand`: window data
or a waking bank that DGST.C needs for its operand, while it holds BOUND off (R176). -/
inductive Wait where
  | none
  | waite (ch : Byte)
  | waiteT (t : Fin 8)
  | halt
  | waitt (n : Nat) (rd : BitVec 5)
  | media (rid : Nat)
  | retry
  | digest (op : DgOp) (f : FormS)
  | operand (op : DgOp) (f : FormS)
  | long (l : LongOp)
  | pool
  deriving DecidableEq, Repr

/-- Whether a sequencer issues (R82, R94, R96, R262). -/
inductive RunState where
  | reset
  | word0
  | rtWait
  | active
  | parked
  | mfault
  | stopped
  deriving DecidableEq, Repr

/-- A work item (R279): its descriptor's fields, the gallery that accepted it (the scope of its ledger terms, R57),
whether it has started, the ticks it has held its sequencer with the slot occupied, and the sequencer that ran it (0xFF: none). -/
structure Item where
  ctx : Half
  scope : GalId
  entry : Half
  args : Vector Word 4
  started : Bool
  ticks : Nat
  ran : Byte := 0xFF
  deriving DecidableEq, Repr

/-- One sequencer. -/
structure Seq where
  regs : Regs := {}
  ledge : Vector Byte 64 := Vector.replicate 64 0
  mic : Micro := {}
  cond : Conds := {}
  prods : List Product := []
  pool : Option PoolOp := none
  poolr : Word := 0
  poolrdy : Bool := false
  store : Store := {}
  cs : CsRegs := {}
  bud : Bud := {}
  exc : Exc := {}
  ra : Ra := {}
  slots : Vector EvSlot 8 := Vector.replicate 8 {}
  dbg : Dbg := {}
  dhalt : Bool := false
  ticks : Bool := false
  unbind : Option Unbind := none
  run : RunState := .reset
  wait : Wait := .none
  lock : Option Nat := none
  running : Option Item := none
  prefetch : Option Item := none
  quantumUp : Bool := false
  deriving DecidableEq, Repr

/-! ### The gallery -/

/-- What a media request is for (R186, R182, R183, R205). -/
inductive Purpose where
  | fetch (xid : Nat) (second : Bool) (dest : Nat)
  | put (xid : Nat) (src : Nat)
  | chunkR (line : Fin 16)
  | chunkW (data : List Byte) (done : Bool)
  | spec (line : Fin 16)
  deriving DecidableEq, Repr

/-- A media request (R270). `mp` marks the MP's own, whose SEQ is 0xFF; `seq` is then no requester. -/
structure MReq where
  rid : Nat
  addr : Nat
  len : Nat
  ctx : Half
  tenant : Byte
  seq : SeqId
  purpose : Purpose
  mp : Bool := false
  deriving DecidableEq, Repr

/-- SEQ of the descriptor: SEQN of the requester (R19), 0xFF for the MP. -/
def MReq.seqn (r : MReq) : Byte := if r.mp then 0xFF else BitVec.ofNat 8 r.seq.val

/-- A tag outstanding (R273, R274); `no` numbers the requests of the channel as they issue. -/
structure Tag where
  tag : Fin 1024
  no : Nat
  req : MReq
  delivered : Nat
  sent : Nat
  sump : Bool
  orphan : Bool
  age : Nat
  resv : Nat
  noResv : Bool
  sourceUe : Bool
  deriving DecidableEq, Repr

/-- A staging line (R205, R206, R182). `dest` of a line bound to a FETCH is its destination's engine address; of a chunk line,
0 for the source and 1 for the second operand. -/
structure Line where
  busy : Bool := false
  chunk : Bool := false
  ctx : Half := 0
  e : Nat := 0
  m : Nat := 0
  seq : SeqId := 0
  bytes : List Byte := []
  outcome : Option (BitVec 3) := none
  dlen : Nat := 0
  bound : Option Nat := none
  dest : Nat := 0
  age : Nat := 0
  born : Nat := 0
  deriving DecidableEq, Repr

/-- The media-port channel (R270 to R278). `unsent` holds the WRITEs answered before all their beats were sent. -/
structure Media where
  tmo : Half := 0x03E8
  rq : Nat := 0
  wd : Nat := 0
  rd : Nat := 0
  crovf : Bool := false
  tmoErr : Bool := false
  declns : Bool := false
  badst : Bool := false
  dlenErr : Bool := false
  beat : Bool := false
  badtag : Bool := false
  sumpResp : Nat := 0
  sumpBytes : Nat := 0
  waiting : List MReq := []
  tags : List Tag := []
  unsent : List Tag := []
  issues : Nat := 0
  rotor : Fin 8 := 0
  nextRid : Nat := 0
  lastReq : Option (Fin 1024 × MReq) := none
  lastBeat : Option (Fin 1024 × List Byte) := none
  deriving DecidableEq, Repr

/-- A timer channel (R305 to R310). `residue` is what the prescaler is known to have kept: the remainder of the last wake correction,
until the next increment. -/
structure Timer where
  en : Bool := false
  sync : Bool := false
  auto : Bool := false
  ie : Bool := false
  pub : Bool := false
  seq : Fin 8 := 0
  pubch : Byte := 0
  pre : Byte := 0
  tmrerr : Bool := false
  slpm : Bool := false
  capovr : Bool := false
  capf : Bool := false
  missed : Bool := false
  armed : Bool := false
  matched : Bool := false
  hit : Bool := false
  residue : Nat := 0
  count : BitVec 48 := 0
  cmp : BitVec 48 := 0xFFFFFFFFFFFF
  cap : BitVec 48 := 0
  intv : Word := 0
  cntHeld : Option Half := none
  cmpHeld : Option Half := none
  cntLatch : Half := 0
  cmpLatch : Half := 0xFFFF
  capLatch : Half := 0
  deriving DecidableEq, Repr

/-- GSTATE (R329, R345). -/
inductive GState where
  | serving | squeezing | squeezed | fenced | off | retained
  deriving DecidableEq, Repr

/-- A GAL_POWER procedure in progress (R348): what it waits for. -/
inductive PowerStep where
  | drain (retain : Bool)
  | retention
  | lowerLogic (retain : Bool)
  | lowerScratch
  | raiseScratch
  | raiseLogic
  deriving DecidableEq, Repr

/-- One gallery; `rdRotor` and `wrRotor` hold the pointer of the tie rotor of each bank's read and write side, entry 8 of whose
list is the fabric agent (R255, R398). -/
structure Gal where
  gstate : GState := .squeezed
  deadleft : Half := 0
  phase : BitVec 21 := 0
  weight : Byte := 0x10
  cut : Bool := false
  tick : Option (BitVec 48) := none
  nextTick : Nat := 0
  mapver : Word := 0
  lines : Vector Line 16 := Vector.replicate 16 {}
  owner : Vector (BitVec 4) 16 := Vector.replicate 16 8
  ret : Half := 0
  awake : Half := 0xFFFF
  waking : Half := 0
  sce : Byte := 0
  sue : Byte := 0
  rterr : Byte := 0
  handerr : Bool := false
  screaddr : Word := 0
  ctxbanks : Half := 0
  rtbase : Word := 0
  md : Media := {}
  timers : Vector Timer 8 := Vector.replicate 8 {}
  stimen : Word := 0
  slotRotor : Fin 8 := 0
  poolRotor : Fin 8 := 0
  rdRotor : Vector (Fin 9) 16 := Vector.replicate 16 0
  wrRotor : Vector (Fin 9) 16 := Vector.replicate 16 0
  led : Vector Word 26 := Vector.replicate 26 0
  installed : ImgSet := {}
  unboundOrder : List Half := []
  xtin : Bool := false
  quantum : Half := 4
  early : Bool := true
  power : Option (PowerStep × Option MbId) := none
  squeeze : Option (Option MbId × Nat × Nat × Nat × Nat) := none
  deriving DecidableEq, Repr

/-! ### Shared parts -/

/-- ENGST.STATE (R36). -/
inductive EngState where
  | calib | init | load | start | service | recovery | test
  deriving DecidableEq, Repr

/-- Engine status, host port, host interrupts (R31, R36, R38, R322). -/
structure Eng where
  state : EngState := .calib
  mpbusy : Bool := false
  win : Bool := false
  ready : Bool := false
  bisten : Bool := false
  bistDead : Bool := false
  heAddr : BitVec 21 := 0
  heDown : Bool := false
  heAlign : Bool := false
  heUnmap : Bool := false
  hirq : BitVec 10 := 0
  hirqen : BitVec 10 := 0
  rdata : Word := 0
  hpErr : Bool := false
  rstcause : BitVec 5 := 1
  deriving DecidableEq, Repr

/-- Mailboxes (R312 to R318). -/
structure Mb where
  bytes : Memory := []
  busy : BitVec 64 := 0
  done : BitVec 64 := 0
  errBox : BitVec 6 := 0
  outwr : Bool := false
  inwr : Bool := false
  dbbusy : Bool := false
  queue : List MbId := []
  rotor : MbId := 0
  deriving DecidableEq, Repr

/-- Firmware writes that wait for the next reference tick boundary (R337, R338). -/
inductive BoundaryWrite where
  | plant (m : MbId) (mask : Half) (words : List Word)
  | hold (m : MbId) (v : Word)
  | tick (m : MbId) (period : BitVec 21) (mhz : BitVec 11) (guard : BitVec 12)
  | stagger (phases : List (BitVec 21)) (m : MbId)
  deriving DecidableEq, Repr

/-- Tick generator and plant governor (R41 to R56). -/
structure Plant where
  period : BitVec 21 := 0x3E80
  mhz : BitVec 11 := 0x640
  tickerr : Bool := false
  tguard : BitVec 12 := 0x400
  pendCfg : Option Word := none
  pendGuard : Option (BitVec 12) := none
  pendPhase : List (GalId × BitVec 21) := []
  writes : List BoundaryWrite := []
  ticknum : BitVec 48 := 0
  numhLatch : Half := 0
  tickOn : Bool := false
  plantlim : Word := 0x08345DC0
  plantadj : Word := 0x01F40000
  thcoef0 : Word := 0
  thcoef1 : Word := 0
  thcoef2 : Word := 0
  thlim : Word := 0x06E005A0
  td : Int := 0
  tp : Int := 0
  te : Int := 0
  sd : Option Int := none
  sp : Option Int := none
  se : Option Int := none
  ageD : Nat := 0
  ageP : Nat := 0
  deriving DecidableEq, Repr

/-- The allowance, the hold-up rule and the class costs (R49 to R56). -/
structure Power where
  grant : BitVec 24 := 0
  ramped : Bool := false
  stale : Bool := false
  etok : BitVec 24 := 0
  prevceil : Nat := 0
  ecur : Nat := 0
  enext : Nat := 0
  wcur : List (GalId × Byte) := []
  wnext : List (GalId × Byte) := []
  debited : Nat := 0
  holdcfg : Word := 0x0085B8D8
  holdlow : Bool := false
  hold : BitVec 24 := 0
  budcost : Vector Word 8 := #v[0x00140000, 0x00300018, 0x003C0028, 0x007800B3, 0x00200040, 0x001C0010, 0, 0]
  deriving DecidableEq, Repr

/-- Ledger (R57 to R62). -/
structure Ledger where
  ce : Byte := 0
  scope : Byte := 0
  qty : BitVec 4 := 0
  mainterr : Bool := false
  ue : Bool := false
  mismatch : Bool := false
  maint : Bool := false
  recount : Bool := true
  armed : Bool := false
  sel : Word := 0
  tick : Word := 0
  resv : Vector Word 4 := Vector.replicate 4 0
  owners : Vector Word 256 := Vector.replicate 256 0
  snap : List (Nat × Nat × Word) := []
  lastBad : List GalId := []
  snapTick : Word := 0
  haveSnap : Bool := false
  storeCe : Bool := false
  storeUe : Bool := false
  deriving DecidableEq, Repr

/-- An event input (R297 to R299). -/
structure EvIn where
  stuck : Bool := false
  ovr : Bool := false
  lvl : Bool := false
  stuckt : Byte := 0
  ch : Byte := 0
  mode : BitVec 3 := 0
  edges : Nat := 0
  active : Nat := 0
  deriving DecidableEq, Repr

/-- An event output (R300). `phases` is the newest pulse as the pin emitted it: each level with its length in fc. -/
structure EvOut where
  mode : Bool := false
  lut : BitVec 6 := 0
  pw : Byte := 1
  pend : BitVec 4 := 0
  ovr : Bool := false
  level : Bool := false
  phases : List (Bool × Byte) := []
  deriving DecidableEq, Repr

/-- A LUT cell (R301 to R304). `before` is its output before its newest evaluation. -/
structure Cell where
  sel : Word := 0xFFFFFFFF
  ctl : Word := 0
  out : Bool := false
  before : Bool := false
  forced : Bool := false
  held : Nat := 0
  u : Bool := false
  prevX : Bool := false
  prevIn3 : Bool := false
  run : Nat := 0
  arrive : Vector (BitVec 2) 4 := Vector.replicate 4 0
  cin : Word := 0
  cout : Word := 0
  adj : Word := 0
  deriving DecidableEq, Repr

/-- The event router (R291 to R304). -/
structure Router where
  chsub : Vector Word 256 := Vector.replicate 256 0
  flight : List (Byte × BitVec 2) := []
  chovr : Vector Word 8 := Vector.replicate 8 0
  drop : Byte := 0
  luterr : Bool := false
  pinerr : Bool := false
  suberr : Bool := false
  anyovr : Bool := false
  ins : Vector EvIn 64 := Vector.replicate 64 {}
  outs : Vector EvOut 64 := Vector.replicate 64 {}
  cells : Vector Cell 64 := Vector.replicate 64 {}
  mpSlots : Vector EvSlot 32 := Vector.replicate 32 {}
  ratio : BitVec 24 := 0x773594
  deriving DecidableEq, Repr

/-- A recorder record (R384); CHK is computed when the record is read. -/
structure Rec where
  num : Word
  tick : BitVec 48
  ofs : Half
  src : Half
  code : Half
  payload : List Byte
  committed : Bool
  deriving DecidableEq, Repr

/-- The recorder (R384 to R388). -/
structure Recorder where
  staging : List Rec := []
  nv : List Rec := []
  next : Word := 0
  newest : Word := 0
  newCom : Word := 0
  lost : Byte := 0
  credit : Byte := 0x40
  burst : Byte := 0x40
  request : Option Word := none
  deriving DecidableEq, Repr

/-- A trace packet (R382). -/
structure Packet where
  typ : Byte
  seqn : Byte
  ofs : Half
  tick : Half
  payload : List Byte
  deriving DecidableEq, Repr

/-- Trace (R381 to R383). -/
structure Trace where
  ctl : Word := 0
  seqs : BitVec 128 := 0
  fifo : List Packet := []
  lost : Half := 0
  owed : Nat := 0
  last : Option Packet := none
  deriving DecidableEq, Repr

/-- A completion record (R281). -/
structure Completion where
  ctx : Half
  status : Byte
  cause : Byte
  result : Word
  ticks : BitVec 24
  seq : Byte
  tokens : Word
  deriving DecidableEq, Repr

/-- A transfer of a context, FETCH or PUT (R186, R189, R206): its parts' outcomes as they arrive. -/
structure Xfer where
  xid : Nat
  ctx : Half
  gal : GalId
  len : Nat
  m : Nat
  isPut : Bool
  first : Option (BitVec 3 × Nat)
  second : Option (BitVec 3 × Nat)
  split : Bool
  deriving DecidableEq, Repr

/-- Work and completion (R279 to R283), the context-table status (R265), items held for re-homing (R269). -/
structure Work where
  fifo : List Completion := []
  last : Option Completion := none
  badd : Byte := 0
  xfers : List Xfer := []
  nextXid : Nat := 0
  heldItems : List (Item × GalId) := []
  cce : Byte := 0
  cue : Bool := false
  cueEntry : Half := 0
  ctxMoves : List Half := []
  deriving DecidableEq, Repr

/-- A program object (R334). -/
structure Prog where
  id : BitVec 10
  gal : GalId
  off : Nat
  size : Nat
  deriving DecidableEq, Repr

/-- A UCODE_COMMIT in progress: its mailbox, the galleries still to commit and those done. The first of `todo` waits for a squeeze
(R107), or, where `writing`, its stores are being written (R108, R112). -/
structure Commit where
  box : MbId
  todo : List GalId
  done : Half
  writing : Bool := false
  deriving DecidableEq, Repr

/-- The MP island (R101 to R119, R331 to R336). `fwRam` is bank 1 (R116); `patches` the IMGVER of the patch set in force, whose
payload is in `patchRam` and which programs units 0 to 23 (R119); the bp registers are those of units 24 to 31. -/
structure Mp where
  fwver : Word := Config.bootFwVer
  stgBase : BitVec 30 := 0
  fallbk : Bool := false
  up : Bool := false
  b1valid : Bool := false
  bank : Bool := false
  b1ver : Word := 0
  patches : Option Word := none
  patchRam : List Byte := []
  patchUnits : Vector (BitVec 96) 24 := Vector.replicate 24 0
  fwRam : List Byte := []
  staged : ImgSet := {}
  verified : Bool := false
  progs : List Prog := []
  quantum : Half := 4
  early : Bool := true
  scrub : BitVec 12 := 0
  scrubOwed : List (SeqId × Bool × BitVec 12) := []
  bpAddrL : Vector Word 8 := Vector.replicate 8 0
  bpAddrH : Vector Word 8 := Vector.replicate 8 0
  bpCtl : Vector Word 8 := Vector.replicate 8 0x0000FFFF
  stepping : List (SeqId × MbId × Nat) := []
  closing : List (Half × MbId) := []
  commits : List Commit := []
  deriving DecidableEq, Repr

/-- A digest session (R285). -/
structure Session where
  opened : Bool := false
  ctx : Half := 0xFFFF
  hmac : Bool := false
  alg : BitVec 2 := 0
  slot : Byte := 0
  err : BitVec 4 := 0
  count : Nat := 0
  h : List Byte := []
  started : Bool := false
  buf : List Byte := []
  reference : List Byte := []
  user : Option SeqId := none
  deriving DecidableEq, Repr

/-- Digest-port transactions (R284). -/
inductive DgTxn where
  | init | block | readout | restore | finish | fincmp | abort
  deriving DecidableEq, Repr

/-- The digest port (R284 to R290); `rotor` is its tie rotor (R398). -/
structure Dg where
  txtmo : BitVec 10 := 0x0C8
  cmptmo : BitVec 10 := 0x100
  glitch : Byte := 0
  tmo : Byte := 0
  mask0 : Word := 0
  mask1 : Word := 0
  ses : Vector Session 256 := Vector.replicate 256 {}
  holder : Option (Fin 256) := none
  txn : Option (DgTxn × Fin 256) := none
  waiting : List (Fin 256) := []
  cmpWait : Option (Fin 256) := none
  lastData : List Byte := []
  rotor : Fin 252 := 0
  deriving DecidableEq, Repr

/-- The always-on island: Lantern, ropes, engine watchdog, sleep emulation (R359, R376, R379, R380). -/
structure Aon where
  lock : Bool := false
  att : Bool := false
  slot : Byte := 0xFF
  nonceCtr : BitVec 128 := 0
  nonce : Option (BitVec 128) := none
  haltpwr0 : Bool := false
  emu : Half := 0
  ewdCount : Half := 0x0148
  ewdPeriod : Half := 0x0148
  xtsrc : Vector Word 8 := Vector.replicate 8 0
  xtdst : Vector Word 8 := Vector.replicate 8 0
  fired : Byte := 0
  xtOut : Byte := 0
  deriving DecidableEq, Repr

/-- Power domains and power loss (R346, R355); `closed` says that last light has ended, whatever PLWST.DONE reads since;
`failed` that a domain timed out in CALIB (R343); `awaited` and `back` that power has returned (R358): the galleries whose domain
has still to answer, and the comparator's answers for what the MP then does. -/
structure Pd where
  on : BitVec 40 := 0
  req : BitVec 40 := 0
  pderr : Bool := false
  errpd : BitVec 6 := 0
  acktmo : Half := 0x0064
  wrwait : Half := 0x05DC
  active : Bool := false
  done : Bool := false
  closed : Bool := false
  elapsed : BitVec 12 := 0
  wrDone : Bool := false
  restore : List GalId := []
  failed : Bool := false
  awaited : List GalId := []
  back : Option (List CmpPair) := none
  retracted : Nat := 0
  completed : Nat := 0
  committed : Nat := 0
  deriving DecidableEq, Repr

/-- ECC state of scratch and context-table codewords, by engine address (R253, R265). -/
structure Ecc where
  ce : List Nat := []
  ue : List Nat := []
  found : List Nat := []
  wb : List Nat := []
  deriving DecidableEq, Repr

/-- The engine. -/
structure State where
  pending : List Instr := []
  variant : Variant := .it16
  freeCtr : Nat := 0
  mem : Memory := []
  ecc : Ecc := {}
  seqs : Vector Seq 128 := Vector.replicate 128 {}
  gals : Vector Gal 16 := Vector.ofFn fun g => { phase := BitVec.ofNat 21 (g.val * 0x3E80 / 16) }
  eng : Eng := {}
  mb : Mb := {}
  plant : Plant := {}
  pow : Power := {}
  ledger : Ledger := {}
  ev : Router := {}
  recd : Recorder := {}
  trace : Trace := {}
  work : Work := {}
  mp : Mp := {}
  dg : Dg := {}
  aon : Aon := {}
  pd : Pd := {}
  deriving DecidableEq, Repr

/-- The machine right after reset: every field at its table's reset value (R353), the start of CALIB. -/
def State.reset : State := {}

end Sys2Proof.Machine
end

