-- ==== Sys2Proof/Machine/Ops.lean ====
section
/-!
DEFINITION. The named operations over memory, sequencers and galleries that every command uses: byte memory in its
canonical form (R25, R153), the accessors and updates of the state's parts, the fields of ST (R124), ECC (R253), the
recorder (R386), the trace port (R382), host interrupts (R322) and the ledger's terms (R57).
-/

namespace Sys2Proof.Machine

open Sys2Proof

/-! ### Memory -/

/-- The byte at an address; an unlisted address reads 0 (R342, log 4). -/
def Memory.get : Memory → Nat → Byte
  | [], _ => 0
  | (b, w) :: t, a => if a = b then w else Memory.get t a

/-- Writes one byte and keeps the canonical form: a written zero is not listed. -/
def Memory.set : Memory → Nat → Byte → Memory
  | [], a, v => if v = 0 then [] else [(a, v)]
  | (b, w) :: t, a, v =>
    if a < b then (if v = 0 then (b, w) :: t else (a, v) :: (b, w) :: t)
    else if a = b then (if v = 0 then t else (a, v) :: t)
    else (b, w) :: Memory.set t a v

/-- The canonical form above a bound: addresses strictly rising and no zero listed. -/
def Memory.wfFrom : Option Nat → Memory → Bool
  | _, [] => true
  | lo, (a, v) :: t => (match lo with | none => true | some l => decide (l < a)) && decide (v ≠ 0) && Memory.wfFrom (some a) t

/-- The canonical form of a memory. -/
def Memory.wf (m : Memory) : Bool := Memory.wfFrom none m

/-- n bytes from an address up. -/
def Memory.readBytes (m : Memory) (a : Nat) : Nat → List Byte
  | 0 => []
  | n + 1 => m.get a :: Memory.readBytes m (a + 1) n

/-- Writes a list of bytes from an address up. -/
def Memory.writeBytes (m : Memory) (a : Nat) : List Byte → Memory
  | [] => m
  | b :: bs => Memory.writeBytes (m.set a b) (a + 1) bs

/-- n bytes, little-endian (R153). -/
def Memory.readLE (m : Memory) (a n : Nat) : Nat := ofLeBytes (m.readBytes a n)

/-- Stores the low n bytes of a number, little-endian. -/
def Memory.writeLE (m : Memory) (a n x : Nat) : Memory := m.writeBytes a (leBytes n x)

/-! ### The parts of the state -/

def State.seq (s : State) (q : SeqId) : Seq := s.seqs[q]
def State.gal (s : State) (g : GalId) : Gal := s.gals[g]

/-- Changes one sequencer and nothing else. -/
def State.modSeq (s : State) (q : SeqId) (f : Seq → Seq) : State := { s with seqs := s.seqs.set q (f (s.seq q)) }

/-- Changes one gallery and nothing else. -/
def State.modGal (s : State) (g : GalId) (f : Gal → Gal) : State := { s with gals := s.gals.set g (f (s.gal g)) }

/-- Changes the registers of one sequencer. -/
def State.modRegs (s : State) (q : SeqId) (f : Regs → Regs) : State := s.modSeq q fun x => { x with regs := f x.regs }

def State.regs (s : State) (q : SeqId) : Regs := (s.seq q).regs

/-- Changes the media channel of one gallery. -/
def State.modMd (s : State) (g : GalId) (f : Media → Media) : State := s.modGal g fun x => { x with md := f x.md }

/-- Applies a change to every element of a list of sequencers or galleries, in order. -/
def State.each {α : Type} (s : State) (l : List α) (f : State → α → State) : State := l.foldl f s

/-- The galleries of the configuration (R6). -/
def State.galleries (s : State) : List GalId := (List.finRange 16).filter fun g => g.val < s.variant.ngal

/-- The sequencers of a gallery. -/
def seqsOf (g : GalId) : List SeqId := (List.finRange 8).map (seqId g)

/-- Every sequencer of the configuration. -/
def State.allSeqs (s : State) : List SeqId := (List.finRange 128).filter fun q => q.val < 8 * s.variant.ngal

def State.present (s : State) (g : GalId) : Bool := g.val < s.variant.ngal

/-- A gallery counted in ENGST.GALSVC: SERVING (R345). -/
def State.serving (s : State) (g : GalId) : Bool := s.present g && (s.gal g).gstate == .serving

/-- The logic domain PD2g is on and out of isolation, and the gallery is neither OFF nor RETAINED, emulated or real
(R346, R379). -/
def State.logicOn (s : State) (g : GalId) : Bool :=
  s.present g && (s.gal g).gstate != .off && (s.gal g).gstate != .retained && bit s.pd.on (2 * g.val)

/-- ENGST.GALSVC (R36). -/
def State.galsvc (s : State) : Half :=
  (List.finRange 16).foldl (fun x g => if s.serving g then x ||| (1#16 <<< g.val) else x) 0

/-! ### ST and the mode -/

def stZ : Nat := 0
def stC : Nat := 1
def stN : Nat := 2
def stV : Nat := 3
def stP : Nat := 4
def stT : Nat := 5
def stPRIV : Nat := 9
def stCT : Nat := 10
def stRES : Nat := 11
def stLKB : Nat := 12
def stFPP : Nat := 13
def stSHORT : Nat := 14

/-- ST.PRIV (R123). -/
def Regs.priv (r : Regs) : Bool := bit r.st stPRIV
/-- ST.ML (R124). -/
def Regs.ml (r : Regs) : Nat := (bits r.st 8 6).toNat
def Regs.withMl (r : Regs) (l : BitVec 3) : Regs := { r with st := putBits r.st 6 l }

/-- S[n], in the copy that ST.PRIV selects (R123). -/
def Regs.seg (r : Regs) (n : BitVec 3) : Desc :=
  if r.priv && n == 0 then r.s0r else if r.priv && n == 7 then r.s7r else r.s[n.toNat]'(by have := n.isLt; omega)

/-- SP, in the selected copy (R123). -/
def Regs.selSp (r : Regs) : Half := if r.priv then r.spr else r.sp
def Regs.setSelSp (r : Regs) (x : Half) : Regs := if r.priv then { r with spr := x } else { r with sp := x }

/-- Writes the program copy (`prog`) or the copy ST.PRIV selects (R156). -/
def Regs.setSeg (r : Regs) (n : BitVec 3) (prog : Bool) (d : Desc) : Regs :=
  if r.priv && !prog && n == 0 then { r with s0r := d }
  else if r.priv && !prog && n == 7 then { r with s7r := d }
  else { r with s := r.s.set n.toNat d (by have := n.isLt; omega) }

/-! ### Free values -/

/-- Takes the next free value's index and advances the counter (log 3). -/
def State.fresh (s : State) : State := { s with freeCtr := s.freeCtr + 1 }

/-! ### Host interrupts -/

/-- Sets a HIRQ bit on its event (R322). -/
def State.hirq (s : State) (i : Nat) : State := { s with eng := { s.eng with hirq := putBit s.eng.hirq i true } }

def hirqMbdone : Nat := 0
def hirqLedger : Nat := 1
def hirqHoldlow : Nat := 2
def hirqState : Nat := 3
def hirqGalsvc : Nat := 4
def hirqMprst : Nat := 5
def hirqFwfallbk : Nat := 6
def hirqFault : Nat := 7
def hirqPlw : Nat := 8
def hirqHosterr : Nat := 9

/-- hp_irq is asserted while (HIRQ and HIRQEN) is not 0 (R322). -/
def State.hpIrq (s : State) : Bool := (s.eng.hirq &&& s.eng.hirqen) != 0

/-! ### Trace -/

/-- TRCTL enables: EN and one packet kind (R382). -/
def State.traceOn (s : State) (k : Nat) : Bool := bit s.trace.ctl 31 && bit s.trace.ctl k

/-- A packet enters the 256-entry FIFO, or is lost and counted; once there is room an OVF packet goes first (R383). -/
def State.packet (s : State) (typ seqn : Byte) (payload : List Byte) : State :=
  let ofs := Config.freeOfs s.freeCtr
  let tick := s.plant.ticknum.setWidth 16
  let t := s.trace
  let ovf : List Packet := if t.owed = 0 then [] else
    [{ typ := 0x0F, seqn := 0xFF, ofs := ofs, tick := tick, payload := leBytes 2 t.owed ++ List.replicate 8 0 }]
  if t.fifo.length + ovf.length < 256 then
    { s.fresh with trace := { t with
        owed := 0
        fifo := t.fifo ++ ovf ++ [{ typ := typ, seqn := seqn, ofs := ofs, tick := tick, payload := payload }] } }
  else
    { s with trace := { t with
        owed := Nat.min 65535 (t.owed + 1)
        lost := if t.lost = 0xFFFF then t.lost else t.lost + 1 } }

/-- A sequencer's packet: only while its SEQN bit is set in TRSEQ and the kind is enabled (R382). -/
def State.seqPacket (s : State) (q : SeqId) (kind : Nat) (typ : Byte) (payload : List Byte) : State :=
  if s.traceOn kind && bit s.trace.seqs q.val then s.packet typ (BitVec.ofNat 8 q.val) payload else s

/-! ### The recorder -/

/-- Record classes (R385): I requests a commit, S is only staged. -/
inductive RecClass where
  | important | staged
  deriving DecidableEq, Repr

/-- SRC of a record: SEQN or 0xFF, gallery, unit (R384). -/
def recSrc (unit : Nat) (g : Nat) (seqn : Nat) : Half := BitVec.ofNat 16 (unit * 4096 + g * 256 + seqn)

/-- A halt request with its reason (R364); a sequencer holding a lock defers it (R368). -/
def Seq.requestHalt (x : Seq) (why : BitVec 3) : Seq :=
  if x.dbg.halted || x.dhalt then x else
  { x with dhalt := true, dbg := { x.dbg with why := why, defer := x.lock.isSome, defcnt := 0 } }

/-- XTST.ARMED: enabled, and every sequencer that the rope halted has resumed (R376). -/
def State.ropeArmed (s : State) (r : Fin 8) : Bool :=
  bit s.aon.xtsrc[r] 0 && !(List.finRange 128).any fun q => (s.seq q).dbg.rope == some r

/-- Fires a rope (R376): halt requests with WHY 5, the rope condition, xt_out, MARK; it is disarmed while a sequencer it
halted has not resumed. -/
def State.fireRope (s : State) (r : Fin 8) : State :=
  if !s.ropeArmed r then s else
  let dst := s.aon.xtdst[r]
  let s := s.each s.allSeqs fun s q =>
    if bit dst (16 + (galOf q).val) && s.logicOn (galOf q) && !(s.seq q).dbg.halted && !(s.seq q).dhalt then
      (s.modSeq q fun x => x.requestHalt 5).modSeq q fun x => { x with dbg := { x.dbg with rope := some r } }
    else s
  let s := s.each s.galleries fun s g =>
    if bit dst g.val then
      let s := s.modGal g fun x => { x with xtin := true }
      s.each (seqsOf g) fun s q => s.modSeq q fun x => { x with exc := { x.exc with irqpend := putBit x.exc.irqpend 8 true } }
    else s
  let s := { s with aon := { s.aon with fired := putBit s.aon.fired r.val true, xtOut := putBit s.aon.xtOut r.val true } }
  if s.traceOn 4 then s.packet 0x08 0xFF (BitVec.ofNat 8 r.val :: List.replicate 9 0) else s

/-- Fires every rope whose trigger of the given kind is met (R376). -/
def State.fireRopes (s : State) (p : Word → Bool) : State :=
  s.each (List.finRange 8) fun s r => if p s.aon.xtsrc[r] then s.fireRope r else s

/-- A record enters the staging ring at slot NUM mod 4,096 with the next number (R386); class I requests a commit.
Records MICROFAULT, DOUBLE, TRIPLE and CTXECC set HIRQ.FAULT (R322); the first three fire ropes with FAULT (R376). -/
def State.record (s : State) (code : Half) (src : Half) (cls : RecClass) (payload : List Byte) : State :=
  let r := s.recd
  let num := r.next
  let rec_ : Rec := { num := num, tick := s.plant.ticknum, ofs := Config.freeOfs s.freeCtr, src := src, code := code,
                      payload := payload, committed := false }
  let lost := r.staging.any fun x => (x.num.toNat % 4096 == num.toNat % 4096) && !x.committed
  let kept := r.staging.filter fun x => x.num.toNat % 4096 != num.toNat % 4096
  let s := { s.fresh with recd := { r with
    staging := kept ++ [rec_], next := num + 1, newest := num,
    lost := if lost then satInc8 r.lost else r.lost,
    request := if cls == .important then some num else r.request } }
  let s := if code == 2 || code == 3 || code == 4 || code == 5 then s.hirq hirqFault else s
  if code == 2 || code == 3 || code == 4 then s.fireRopes fun x => bit x 2 else s

/-! ### Ledger terms -/

/-- Adds to a cumulative term of a gallery's ledger (R57); the index table is `ledIx`. -/
def State.led (s : State) (g : GalId) (i : Fin 26) (n : Nat) : State :=
  s.modGal g fun x => { x with led := x.led.set i (x.led[i] + BitVec.ofNat 32 n) }

/-- First index of the terms of a per-gallery quantity code (R57). -/
def ledBase : Nat → Option (Nat × Nat)
  | 1 => some (0, 4)
  | 2 => some (4, 4)
  | 3 => some (8, 4)
  | 4 => some (12, 4)
  | 5 => some (16, 5)
  | 8 => some (21, 5)
  | _ => none

/-! ### ECC of scratch and the context table -/

/-- Codewords (8-byte aligned addresses) that a range of bytes touches (R253). -/
def codewords (a n : Nat) : List Nat :=
  if n = 0 then [] else (List.range ((a + n - 1) / 8 - a / 8 + 1)).map fun i => (a / 8 + i) * 8

/-- Base of the engine-internal region and of its two ranges (R28). -/
def scratchBase : Nat := 0x8000000000000
def ctxBase : Nat := 0x8000001000000

/-- Engine address of a gallery's scratch offset (R28). -/
def scratchAddr (g : GalId) (off : Nat) : Nat := scratchBase + g.val * 0x100000 + off

/-- Where an engine address of region 0b10 lies (R28). -/
inductive Place where
  | scratch (g : GalId) (off : Nat)
  | ctx (off : Nat)
  | nowhere
  deriving DecidableEq, Repr

def placeOf (a : Nat) : Place :=
  if h : scratchBase ≤ a ∧ a < scratchBase + 0x1000000 then
    .scratch ⟨(a - scratchBase) / 0x100000, by omega⟩ ((a - scratchBase) % 0x100000)
  else if ctxBase ≤ a ∧ a < ctxBase + 0x200000 then .ctx (a - ctxBase)
  else .nowhere

/-- The bank of a gallery offset (R252). -/
def bankOf (off : Nat) : Fin 16 := Fin.ofNat 16 (off / 0x10000)

/-- The bank numbers of a range of scratch. -/
def banksOf (off n : Nat) : List (Fin 16) :=
  (List.range ((off + n - 1) / 0x10000 - off / 0x10000 + 1)).map fun i => Fin.ofNat 16 (off / 0x10000 + i)

/-- The banks of a range have ended their wake: an access of the MP, the runtime or the media port that reaches a sleeping bank
wakes it, holds for the wake, and is then served, within its own step (R261, log 85). -/
def State.awaken (s : State) (a n : Nat) : State :=
  match placeOf a with
  | .scratch g off => s.modGal g fun x => { x with
      awake := (banksOf off n).foldl (fun m b => putBit m b.val true) x.awake
      waking := (banksOf off n).foldl (fun m b => putBit m b.val false) x.waking }
  | _ => s

/-- A count of n more, saturating at 255. -/
def satAdd8 (x : Byte) (n : Nat) : Byte := BitVec.ofNat 8 (Nat.min 255 (x.toNat + n))

/-- Notes what a read of codewords finds (R253): corrected errors are counted, recorded and queued for write-back,
uncorrectable ones are counted once. -/
def State.eccRead (s : State) (g : GalId) (a n : Nat) : State :=
  s.each (codewords a n) fun s c =>
    if s.ecc.ue.contains c then
      if s.ecc.found.contains c then s else
      let s := { s with ecc := { s.ecc with found := c :: s.ecc.found } }
      s.modGal g fun x => { x with sue := satInc8 x.sue, screaddr := BitVec.ofNat 32 (0x100000 + (c - scratchBase) % 0x100000) }
    else if s.ecc.ce.contains c then
      let s := { s with ecc := { s.ecc with wb := if s.ecc.wb.contains c then s.ecc.wb else s.ecc.wb ++ [c] } }
      s.modGal g fun x => { x with sce := satInc8 x.sce, screaddr := BitVec.ofNat 32 ((c - scratchBase) % 0x100000) }
    else s

/-- Whether a range of bytes meets an uncorrectable codeword (R253). -/
def State.poisoned (s : State) (a n : Nat) : Bool := (codewords a n).any fun c => s.ecc.ue.contains c

/-- What a write does to check bits (R253, R254): a codeword written whole is good again, and so is one with a corrected error,
which the merge stores anew; a write discards a pending write-back of its codeword. -/
def Ecc.wrote (e : Ecc) (a n : Nat) : Ecc :=
  let whole := (codewords a n).filter fun c => a ≤ c ∧ c + 8 ≤ a + n
  let any := codewords a n
  { ce := e.ce.filter fun c => !any.contains c
    ue := e.ue.filter fun c => !whole.contains c
    found := e.found.filter fun c => !whole.contains c
    wb := e.wb.filter fun c => !any.contains c }

/-- The codewords that a write covers in part. -/
def partWords (a n : Nat) : List Nat := (codewords a n).filter fun c => !(a ≤ c ∧ c + 8 ≤ a + n)

/-- A write that covers part of a codeword merges with the old one inside the bank, which finds its error (R253). -/
def State.mergeEcc (s : State) (a n : Nat) : State :=
  match placeOf a with
  | .scratch g _ => s.each (partWords a n) fun s c => s.eccRead g c 8
  | _ => s

/-- Stores bytes at an engine address, with their check bits. -/
def State.store (s : State) (a : Nat) (bs : List Byte) : State :=
  let s := (s.awaken a bs.length).mergeEcc a bs.length
  { s with mem := s.mem.writeBytes a bs, ecc := s.ecc.wrote a bs.length }

/-- A read by the MP or the runtime: it wakes a sleeping bank, and what it finds is counted (R253, R261). -/
def State.scratchRead (s : State) (a n : Nat) : State × List Byte :=
  let s := s.awaken a n
  (match placeOf a with | .scratch g _ => s.eccRead g a n | _ => s, s.mem.readBytes a n)

/-! ### The context table (R263) -/

def ctxAddr (c : Half) : Nat := ctxBase + c.toNat * 32

/-- STATE codes of an entry (R263). -/
def ctxFREE : Nat := 0
def ctxOPEN : Nat := 1
def ctxBOUND : Nat := 2
def ctxPARKED : Nat := 3
def ctxHOMING : Nat := 4
def ctxBROKEN : Nat := 5

/-- A field of an entry: n bytes at an offset, little-endian. -/
def State.ctxField (s : State) (c : Half) (off n : Nat) : Nat := s.mem.readLE (ctxAddr c + off) n
def State.ctxState (s : State) (c : Half) : Nat := s.ctxField c 0 1
def State.setCtxField (s : State) (c : Half) (off n v : Nat) : State :=
  { s with mem := s.mem.writeLE (ctxAddr c + off) n v }
def State.setCtxState (s : State) (c : Half) (v : Nat) : State := s.setCtxField c 0 1 v
def State.ctxFlag (s : State) (c : Half) (i : Nat) : Bool := (s.ctxField c 1 1).testBit i
def State.setCtxFlag (s : State) (c : Half) (i : Nat) (b : Bool) : State :=
  s.setCtxField c 1 1 (putBit (BitVec.ofNat 8 (s.ctxField c 1 1)) i b).toNat
def State.ctxHome (s : State) (c : Half) : GalId := Fin.ofNat 16 (s.ctxField c 2 1)
/-- SAVE: the buffer-memory address of the save area. -/
def State.ctxSave (s : State) (c : Half) : Nat := (s.ctxField c 8 8 % 2 ^ 44) * 256
def State.ctxXcnt (s : State) (c : Half) : Nat := s.ctxField c 0x14 1
def State.ctxXfail (s : State) (c : Half) : Nat := s.ctxField c 0x10 4
/-- The gallery offset of the resident copy's slot (R267). -/
def State.ctxSlot (s : State) (c : Half) : Nat :=
  scratchAddr (s.ctxHome c) ((s.ctxField c 4 2 % 4096) * 256)

/-- Contexts whose entry lists a byte: the candidates for a search over entries not FREE. -/
def State.ctxListed (s : State) : List Half :=
  ((s.mem.filter fun e => ctxBase ≤ e.1 ∧ e.1 < ctxBase + 0x200000 ∧ (e.1 - ctxBase) % 32 = 0).map
    fun e => BitVec.ofNat 16 ((e.1 - ctxBase) / 32))

/-- Entries with STATE other than FREE, for CTXST.OPEN (R265). -/
def State.ctxOpenCount (s : State) : Nat := s.ctxListed.length

/-- What an uncorrectable codeword of the table does (R265): STATE := BROKEN, the first codeword rewritten, a CTXECC record,
CTXST.UE, CTXUE. -/
def State.ctxBroken (s : State) (c : Half) : State :=
  let first := s.ecc.ue.contains (ctxAddr c)
  let s := if first then { s with mem := s.mem.writeLE (ctxAddr c) 8 0 } else s
  let s := s.setCtxState c ctxBROKEN
  let s := { s with ecc := s.ecc.wrote (ctxAddr c) 8,
                    work := { s.work with cue := true, cueEntry := c } }
  s.record 5 (recSrc 6 0 0xFF) .important (leBytes 2 c.toNat)

/-- A read of an entry, by any agent: corrected codewords are counted, an uncorrectable one breaks the entry (R265). -/
def State.ctxTouch (s : State) (c : Half) : State :=
  let fixed := (codewords (ctxAddr c) 32).filter fun w => s.ecc.ce.contains w
  let s := { s with ecc := { s.ecc with ce := s.ecc.ce.filter fun w => !fixed.contains w },
                    work := { s.work with cce := satAdd8 s.work.cce fixed.length } }
  if s.poisoned (ctxAddr c) 32 then s.ctxBroken c else s

/-- Bits of a table byte, by its offset in the entry, that a sequencer may write (R263, R264). -/
def ctxSeqMask (off : Nat) : Byte :=
  if off = 0 then 0xFF else if off = 1 then 0x03 else if off = 3 then 0xFF
  else if off = 4 ∨ off = 5 then 0xFF else if 0x18 ≤ off then 0xFF else 0

/-- A sequencer's store into the table: bytes it may not write are discarded (R264). -/
def Memory.ctxStore (m : Memory) (a : Nat) : List Byte → Memory
  | [] => m
  | b :: bs =>
    let k := ctxSeqMask ((a - ctxBase) % 32)
    Memory.ctxStore (m.set a ((m.get a &&& ~~~k) ||| (b &&& k))) (a + 1) bs

/-! ### Interrupt sources -/

/-- Sets IRQPEND bit i, vector 16 + i (R241). -/
def State.irq (s : State) (q : SeqId) (i : Nat) : State :=
  s.modSeq q fun x => { x with exc := { x.exc with irqpend := putBit x.exc.irqpend i true } }

/-- The level IRQLVL gives vector 16 + i (R242). -/
def Exc.level (e : Exc) (i : Nat) : Nat :=
  if i < 8 then (e.irqlvl0.toNat / 16 ^ i) % 8 else (e.irqlvl1.toNat / 16 ^ (i - 8)) % 8

/-- The pending interrupt to take: highest level above ML, then lowest vector (R242). -/
def Exc.best (e : Exc) (ml : Nat) : Option Nat :=
  (List.range 16).foldl (fun b i =>
    if bit e.irqpend i && decide (ml < e.level i) then
      match b with
      | none => some i
      | some j => if e.level j < e.level i then some i else b
    else b) none

/-! ### Locks (R169) -/

/-- Breaks a sequencer's lock: LKB in the holder's ST and vector 26. -/
def State.breakLock (s : State) (q : SeqId) : State :=
  match (s.seq q).lock with
  | none => s
  | some _ =>
    let s := s.modSeq q fun x => { x with lock := none, regs := { x.regs with st := putBit x.regs.st stLKB true } }
    s.irq q 10

/-- Breaks every lock held by a sequencer of gallery g or on a word of its scratch. -/
def State.breakLocksAt (s : State) (g : GalId) : State :=
  s.each (List.finRange 128) fun s q =>
    match (s.seq q).lock with
    | none => s
    | some a =>
      if galOf q = g ∨ placeOf a = .scratch g (a % 0x100000) then s.breakLock q else s

end Sys2Proof.Machine
end

