-- ==== Sys2Proof/Machine/Reply.lean ====
section
/-!
DEFINITION. Mailbox messages: the bytes of a mailbox, CRC-16 (R314) and the reply (R313, R315).
-/

namespace Sys2Proof.Machine

open Sys2Proof

/-! ### The bytes of a mailbox (R312) -/

/-- A field of mailbox m, little-endian. -/
def State.mbField (s : State) (m : MbId) (off n : Nat) : Nat := s.mb.bytes.readLE (m.val * 256 + off) n
/-- A payload field of the inbound half. -/
def State.arg (s : State) (m : MbId) (off n : Nat) : Nat := s.mbField m (16 + off) n

/-- One byte into CRC-16/IBM-3740: polynomial 0x1021, not reflected (R17). -/
def crc16Byte (c : Half) (b : Byte) : Half :=
  (List.range 8).foldl (fun c _ => if c.msb then (c <<< 1) ^^^ 0x1021 else c <<< 1) (c ^^^ (b.setWidth 16 <<< 8))

/-- CRC-16/IBM-3740: initial value 0xFFFF. -/
def crc16 (bs : List Byte) : Half := bs.foldl crc16Byte 0xFFFF

/-- CHK of a half whose header starts at an offset of mailbox m and whose payload has n bytes (R314). -/
def State.mbChk (s : State) (m : MbId) (off n : Nat) : Half :=
  crc16 (s.mb.bytes.readBytes (m.val * 256 + off) 14 ++ s.mb.bytes.readBytes (m.val * 256 + off + 16) n)

/-! ### Status codes (R321) -/

def mbOK : Byte := 0x00
def mbBUSY : Byte := 0x01
def mbBADCMD : Byte := 0x02
def mbBADLEN : Byte := 0x03
def mbBADCHK : Byte := 0x04
def mbBADARG : Byte := 0x05
def mbDENIED : Byte := 0x06
def mbSTATE : Byte := 0x07
def mbNOMEM : Byte := 0x08
def mbAUTHFAIL : Byte := 0x09
def mbTIMEOUT : Byte := 0x0A
def mbFENCED : Byte := 0x0B
def mbPARTIAL : Byte := 0x0C
def mbINTERNAL : Byte := 0xFF

/-! ### The reply -/

/-- Writes the outbound half: echoed CMD, SEQ and TAG, STATUS, DETAIL, CHK, the payload and zeros behind it. -/
def State.outbound (s : State) (m : MbId) (status : Byte) (detail : Nat) (payload : List Byte) : State :=
  let b := m.val * 256
  let head := s.mb.bytes.readBytes b 4 ++ leBytes 2 payload.length ++ [status, 0] ++ s.mb.bytes.readBytes (b + 8) 4
    ++ leBytes 2 detail
  let bytes := s.mb.bytes.writeBytes (b + 0x80)
    (head ++ leBytes 2 (crc16 (head ++ payload)).toNat ++ payload ++ List.replicate (112 - payload.length) 0)
  { s with mb := { s.mb with bytes := bytes } }

/-- A reply posts: outbound half, MBDONE, MBBUSY, HIRQ.MBDONE where NOTIFY asks for it (R313, R315, R322). -/
def State.post (s : State) (m : MbId) (status : Byte) (detail : Nat) (payload : List Byte) : State :=
  let s := s.outbound m status detail payload
  let s := { s with mb := { s.mb with
    busy := putBit s.mb.busy m.val false, done := putBit s.mb.done m.val true, queue := s.mb.queue.filter (· != m) } }
  if s.mbField m 6 2 % 2 = 1 then s.hirq hirqMbdone else s

/-! ### The command set (R323 to R339, R361) -/

/-- The payload length of the message in mailbox m; none where its CMD is not assigned. -/
def State.cmdLen (s : State) (m : MbId) : Option Nat :=
  match s.mbField m 0 2 with
  | 0x0101 | 0x0102 | 0x0104 | 0x0105 => some 0
  | 0x0103 => some 4
  | 0x0201 | 0x0204 | 0x0205 | 0x0207 => some 16
  | 0x0202 | 0x0203 | 0x0206 => some 4
  | 0x0301 | 0x0302 | 0x0303 | 0x0304 | 0x0305 => some 4
  | 0x0401 | 0x0403 | 0x0404 => some 20
  | 0x0402 | 0x0405 | 0x0406 | 0x0407 => some 4
  | 0x0501 | 0x0503 => some 4
  | 0x0502 => some 60
  | 0x0504 => some 8
  | 0x0601 => some 8
  | 0x0602 => some 12
  | 0x0603 => some 28
  | 0x0604 => some 68
  | 0x0701 => some 16
  | 0x0702 => some 48
  | 0x0703 => some 20
  | 0x0801 => some 36
  | 0x0802 => some 0
  | 0x0803 | 0x0804 => some 16
  | 0x0805 | 0x0807 => some 8
  | 0x0806 => some 16
  | 0x0808 | 0x0809 | 0x080B => some 12
  | 0x080A => some (12 + s.arg m 3 1)
  | 0x080C => some (8 + if s.arg m 2 1 = 1 then s.arg m 3 1 else 0)
  | _ => none

/-- Whether a mailbox accepts a command (R312). -/
def accepts (m : MbId) (code : Nat) : Bool :=
  let lantern := decide (0x0801 ≤ code) && decide (code ≤ 0x080C)
  if m.val = 63 then lantern || code = 0x0101 || code = 0x0102 else !lantern

/-- The first of the checks 1 to 5 of R320 that a message fails. -/
def State.msgFault (s : State) (m : MbId) : Option Byte :=
  let len := s.mbField m 4 2
  if 112 < len then some mbBADLEN
  else if s.mbField m 14 2 ≠ (s.mbChk m 0 len).toNat then some mbBADCHK
  else match s.cmdLen m with
    | none => some mbBADCMD
    | some n =>
      if !accepts m (s.mbField m 0 2) then some mbBADCMD
      else if 2 ≤ s.mbField m 6 2 ∨ s.mbField m 12 2 ≠ 0 then some mbBADARG
      else if len ≠ n then some mbBADLEN
      else none

/-- The MP takes messages in the order of their doorbells (R318): those that fail checks 1 to 5 are answered as they come to the
front, each with its status. -/
def State.answerFaulty (s : State) : State :=
  s.mb.queue.foldl (fun s m =>
    if s.mb.queue.head? = some m then
      match s.msgFault m with
      | some st => s.post m st 0 []
      | none => s
    else s) s

/-- A reply of the MP; faulty messages that it leaves at the front of the queue are answered behind it. -/
def State.reply (s : State) (m : MbId) (status : Byte) (detail : Nat := 0) (payload : List Byte := []) : State :=
  (s.post m status detail payload).answerFaulty

/-- The reply of a long command, where a mailbox waits for it. -/
def State.replyTo (s : State) (m : Option MbId) (status : Byte) (detail : Nat := 0) (payload : List Byte := []) : State :=
  match m with
  | none => s
  | some m => s.reply m status detail payload

end Sys2Proof.Machine
end

