-- ==== Sys2Proof/Machine/Router.lean ====
section
/-!
DEFINITION. Counts on channels (R291 to R296, R309): publication, the slots of sequencers and of the MP, and delivery of a
count to its consumer.
-/

namespace Sys2Proof.Machine

open Sys2Proof

/-! ### CHSUB (R294) -/

def State.chsub (s : State) (ch : Byte) : Word := s.ev.chsub[ch.toNat]
/-- CHSUBn.TYPE. -/
def chType (v : Word) : Nat := (v.extractLsb' 28 4).toNat
/-- CHSUBn.UNIT. -/
def chUnit (v : Word) : Nat := (v.extractLsb' 16 8).toNat
/-- CHSUBn.SLOT. -/
def chSlot (v : Word) : Fin 8 := Fin.ofNat 8 (v.toNat % 8)

/-! ### Publication (R291, R292) -/

/-- Whether counts of a channel are in flight. -/
def Router.flying (r : Router) (ch : Byte) : Bool := r.flight.any fun e => e.1 == ch

/-- Adds n counts to the newest entry of a channel, carried as at most 3. -/
def addNewest (ch : Byte) (n : Nat) : List (Byte × BitVec 2) → List (Byte × BitVec 2)
  | [] => []
  | e :: l =>
    if l.any (fun x => x.1 == ch) then e :: addNewest ch n l
    else if e.1 == ch then (ch, BitVec.ofNat 2 (Nat.min (e.2.toNat + n) 3)) :: l
    else e :: addNewest ch n l

/-- Counts of the newest entry of a channel. -/
def Router.newest (r : Router) (ch : Byte) : Nat :=
  match r.flight.reverse.find? fun e => e.1 == ch with
  | none => 0
  | some e => e.2.toNat

/-- The router carries n counts of a channel: in the fc of the newest entry the sum is carried as at most 3, a greater one with its bit
in EVCHOVR and EVSTAT.CHOVR, the rest lost; in an fc of their own they are an entry of their own (R292). -/
def Router.carry (r : Router) (same : Bool) (ch : Byte) (n : Nat) : Router :=
  if !same then { r with flight := r.flight ++ [(ch, BitVec.ofNat 2 (Nat.min n 3))] }
  else
    let r1 : Router := { r with flight := addNewest ch n r.flight }
    if 3 < r.newest ch + n then
      { r1 with anyovr := true
                chovr := r.chovr.set (ch.toNat / 32) (putBit (r.chovr[ch.toNat / 32]'(by omega)) (ch.toNat % 32) true) (by omega) }
    else r1

/-- A publisher's n counts (R291): discarded where the channel has no consumer. Where counts of the channel are in flight, whether the
newest of them was published in the same fc is free (log 49). -/
def State.publish (s : State) (ch : Byte) (n : Nat) : State :=
  if n = 0 ∨ chType (s.chsub ch) = 0 then s
  else if s.ev.flying ch then ({ s with ev := s.ev.carry (Config.sameFc s.freeCtr) ch n } : State).fresh
  else { s with ev := s.ev.carry false ch n }

/-! ### Slots (R296) -/

/-- a counts arrive at a slot. -/
def EvSlot.arrive (e : EvSlot) (a : Nat) : EvSlot :=
  let n := e.pend.toNat + a
  { e with pend := BitVec.ofNat 4 (Nat.min n 15), ovr := e.ovr || decide (15 < n) }

/-- EVPEND (R296). -/
def Seq.evpend (x : Seq) : Bool := x.slots.toList.any fun e => e.v && e.pend != 0

/-- The slot of a channel in this sequencer. -/
def Seq.slotOf (x : Seq) (ch : Byte) : Option (Fin 8) := (List.finRange 8).find? fun i => x.slots[i].v && x.slots[i].ch == ch

/-- The pending count of a channel for this sequencer; 0 without a slot (R167). -/
def Seq.pendOf (x : Seq) (ch : Byte) : Nat :=
  match x.slotOf ch with
  | none => 0
  | some i => x.slots[i].pend.toNat

/-- Takes one pending count of a channel, if there is one. -/
def Seq.take (x : Seq) (ch : Byte) : Seq :=
  match x.slotOf ch with
  | none => x
  | some i => { x with slots := x.slots.set i { x.slots[i] with pend := x.slots[i].pend - if x.slots[i].pend = 0 then 0 else 1 } }

/-- Counts arrive at a sequencer's slot: vectors 17 and 18 (R296). -/
def State.slotArrive (s : State) (q : SeqId) (i : Fin 8) (n : Nat) : State :=
  let x := s.seq q
  let e := x.slots[i].arrive n
  let y := { x with slots := x.slots.set i e }
  let s := s.modSeq q fun _ => y
  let s := if !x.evpend && y.evpend then s.irq q 1 else s
  if !x.slots[i].ovr && e.ovr then s.modSeq q (fun x => { x with cond := { x.cond with evovr := true } }) |>.irq q 2 else s

/-- Counts discarded at a consumer whose domain is off (R295). -/
def State.evDrop (s : State) (n : Nat) : State :=
  { s with ev := { s.ev with drop := BitVec.ofNat 8 (Nat.min 255 (s.ev.drop.toNat + n)) } }

/-! ### Captures (R309) -/

/-- k captures of a timer in one fc. -/
def Timer.capture (t : Timer) (k : Nat) : Timer :=
  { t with cap := t.count, capf := true, capovr := t.capovr || t.capf || decide (1 < k) }

def State.modTimer (s : State) (g : GalId) (t : Fin 8) (f : Timer → Timer) : State :=
  s.modGal g fun x => { x with timers := x.timers.set t (f x.timers[t]) }

/-! ### Delivery (R293, R295) -/

/-- n counts of a channel reach the consumer that CHSUB names. -/
def State.evDeliver (s : State) (sub : Word) (n : Nat) : State :=
  let u := chUnit sub
  match chType sub with
  | 1 =>
    let q : SeqId := Fin.ofNat 128 u
    if s.logicOn (galOf q) then s.slotArrive q (chSlot sub) n else s.evDrop n
  | 2 =>
    let i : Fin 32 := Fin.ofNat 32 u
    { s with ev := { s.ev with mpSlots := s.ev.mpSlots.set i (s.ev.mpSlots[i].arrive n) } }
  | 3 =>
    let i : Fin 64 := Fin.ofNat 64 u
    let o := s.ev.outs[i]
    let m := o.pend.toNat + n
    let o' : EvOut := { o with pend := BitVec.ofNat 4 (Nat.min m 15), ovr := o.ovr || decide (15 < m) }
    if o.mode then s else { s with ev := { s.ev with outs := s.ev.outs.set i o' } }
  | 4 =>
    let g : GalId := Fin.ofNat 16 (u / 8)
    if s.variant.aotmr || s.logicOn g then s.modTimer g (Fin.ofNat 8 (u % 8)) fun t => t.capture n else s.evDrop n
  | 5 =>
    let j : Fin 64 := Fin.ofNat 64 (u / 4)
    let c := s.ev.cells[j]
    let k : Fin 4 := Fin.ofNat 4 (u % 4)
    let c' : Cell := { c with arrive := c.arrive.set k (BitVec.ofNat 2 (Nat.min 3 (c.arrive[k].toNat + n))) }
    { s with ev := { s.ev with cells := s.ev.cells.set j c' } }
  | _ => s

end Sys2Proof.Machine
end

