-- ==== Sys2Proof/Machine/Operands.lean ====
section
/-!
DEFINITION. Operands: the register views (R122, R73), special registers (R130, R131), the access check (R135), the
descriptor check (R133), the offsets of loads and stores (R152) and the memory behind an engine address (R28, R351).
-/

namespace Sys2Proof.Machine

open Sys2Proof

/-! ### Register views (R122, R73) -/

/-- B[n]. -/
def Regs.B (r : Regs) (n : BitVec 5) : Byte := r.b[n.toNat]
/-- The byte register of a number taken modulo 32. -/
def Regs.byteAt (r : Regs) (n : Nat) : Byte := r.b[n % 32]'(Nat.mod_lt _ (by omega))
def Regs.setByteAt (r : Regs) (n : Nat) (v : Byte) : Regs := { r with b := r.b.set (n % 32) v (Nat.mod_lt _ (by omega)) }
/-- H[n]: the pair 2n, 2n + 1 for n modulo 16. -/
def Regs.H (r : Regs) (n : BitVec 5) : Half := r.byteAt (2 * (n.toNat % 16) + 1) ++ r.byteAt (2 * (n.toNat % 16))
/-- W[n]: four bytes from 4n for n modulo 8. -/
def Regs.W (r : Regs) (n : BitVec 5) : Word :=
  r.byteAt (4 * (n.toNat % 8) + 3) ++ r.byteAt (4 * (n.toNat % 8) + 2) ++ r.byteAt (4 * (n.toNat % 8) + 1)
    ++ r.byteAt (4 * (n.toNat % 8))
/-- A[n] for n modulo 8. -/
def Regs.A (r : Regs) (n : BitVec 5) : Half := r.a[n.toNat % 8]'(Nat.mod_lt _ (by omega))

def Regs.setB (r : Regs) (n : BitVec 5) (v : Byte) : Regs := { r with b := r.b.set n.toNat v }
def Regs.setH (r : Regs) (n : BitVec 5) (v : Half) : Regs :=
  (r.setByteAt (2 * (n.toNat % 16)) (v.setWidth 8)).setByteAt (2 * (n.toNat % 16) + 1) (v.extractLsb' 8 8)
def Regs.setW (r : Regs) (n : BitVec 5) (v : Word) : Regs :=
  (((r.setByteAt (4 * (n.toNat % 8)) (v.setWidth 8)).setByteAt (4 * (n.toNat % 8) + 1) (v.extractLsb' 8 8)).setByteAt
    (4 * (n.toNat % 8) + 2) (v.extractLsb' 16 8)).setByteAt (4 * (n.toNat % 8) + 3) (v.extractLsb' 24 8)
def Regs.setA (r : Regs) (n : BitVec 5) (v : Half) : Regs :=
  { r with a := r.a.set (n.toNat % 8) v (Nat.mod_lt _ (by omega)) }

/-- The views an instruction names a register through. -/
inductive View where
  | b | h | w | a
  deriving DecidableEq, Repr

def View.size : View → Nat
  | .b => 1
  | .h => 2
  | .w => 4
  | .a => 2

def Regs.view (r : Regs) : View → BitVec 5 → Nat
  | .b, n => (r.B n).toNat
  | .h, n => (r.H n).toNat
  | .w, n => (r.W n).toNat
  | .a, n => (r.A n).toNat

def Regs.setView (r : Regs) (v : View) (n : BitVec 5) (x : Nat) : Regs :=
  match v with
  | .b => r.setB n (BitVec.ofNat 8 x)
  | .h => r.setH n (BitVec.ofNat 16 x)
  | .w => r.setW n (BitVec.ofNat 32 x)
  | .a => r.setA n (BitVec.ofNat 16 x)

/-! ### What an instruction reads or writes, for the pending items of R213 -/

/-- Register bytes, ST bits, and FPC. -/
structure Touch where
  bytes : Word := 0
  st : Half := 0
  fpc : Bool := false
  deriving DecidableEq, Repr

def Touch.or (x y : Touch) : Touch := { bytes := x.bytes ||| y.bytes, st := x.st ||| y.st, fpc := x.fpc || y.fpc }

/-- The bytes a view covers; the A registers are no bytes. -/
def viewBytes (v : View) (n : BitVec 5) : Word :=
  match v with
  | .b => 1#32 <<< n.toNat
  | .h => 3#32 <<< (2 * (n.toNat % 16))
  | .w => 15#32 <<< (4 * (n.toNat % 8))
  | .a => 0

def tView (v : View) (n : BitVec 5) : Touch := { bytes := viewBytes v n }
def tB (n : BitVec 5) : Touch := tView .b n
def tH (n : BitVec 5) : Touch := tView .h n
def tW (n : BitVec 5) : Touch := tView .w n
def tSt (m : Half) : Touch := { st := m }
def tNone : Touch := {}

/-- The pending items of the operation in flight (R213): its destination, FPC and ST.FPP for floating point, ST bits [5:0]
for an operation that sets flags. -/
def PoolOp.items (p : PoolOp) : Touch :=
  { bytes := match p.dest with
      | none => 0
      | some (sz, n) => if sz = 1 then viewBytes .b n else if sz = 2 then viewBytes .h n else viewBytes .w n
    st := (if p.stMask = 0 then 0 else 0x3F) ||| (if p.fp then 1#16 <<< stFPP else 0)
    fpc := p.fp }

/-- An instruction is presented as absent while it touches a pending item (R213). -/
def Touch.meets (t : Touch) (p : Option PoolOp) : Bool :=
  match p with
  | none => false
  | some p =>
    let i := p.items
    (t.bytes &&& i.bytes) != 0 || (t.st &&& i.st) != 0 || (t.fpc && i.fpc)

/-! ### Exceptions raised by an instruction -/

/-- A fault: its vector, cause code, segment and EADDR (R237, R251). -/
structure Exn where
  vec : Nat
  cause : Byte
  seg : BitVec 3 := 0
  eaddr : Half
  deriving DecidableEq, Repr

/-- ILLEGAL with EADDR := PC (R143). -/
def illegal (pc : Half) (cause : Byte) : Exn := { vec := 1, cause := cause, eaddr := pc }
/-- PRIV with cause 0x40 and EADDR := PC (R144). -/
def privFault (pc : Half) : Exn := { vec := 5, cause := 0x40, eaddr := pc }

/-! ### Special registers (R130, R131) -/

/-- FPC: writable fields; RM 0b101 to 0b111 stores 0b000 (R126). -/
def fpcWrite (old new : Word) : Word :=
  let m : Word := 0x601F1F07
  let v := (old &&& ~~~m) ||| (new &&& m)
  let v := v &&& 0x7F1F1F07
  if 4 < (v &&& 7).toNat then v &&& ~~~7#32 else v

/-- CRCCFG: WIDTH 0 or 33 to 63 stores 32 (R128). -/
def crccfgWrite (v : Word) : Word :=
  let w := v &&& 0x3F
  (v &&& 0xC0) ||| (if w = 0 ∨ 32 < w.toNat then 32 else w)

/-- LSP: a value above 0x40 stores 0x40 (R127); bits 7 and 0 are reserved. -/
def lspWrite (v : Byte) : Byte := if 0x40 < v.toNat then 0x40 else v &&& 0x7E

/-- A MOVX write of ST: bits [5:0] and CT, and RES with PRIV = 1 (R125). -/
def stWrite (old new : Half) : Half :=
  let m : Half := if bit old stPRIV then 0x0C3F else 0x043F
  (old &&& ~~~m) ||| (new &&& m)

/-- A number assigned by R130. -/
def srAssigned (n : Nat) : Bool := n ≤ 0x0A || (0x10 ≤ n && n ≤ 0x15)
/-- Read only: PC, CTXID, SEQN. -/
def srReadOnly (n : Nat) : Bool := n = 5 || n = 0x0A || n = 0x15
/-- Runtime mode only. -/
def srPriv (n : Nat) : Bool := 0x10 ≤ n && n ≤ 0x15

/-- Value of a special register, zero-extended. -/
def Regs.sr (r : Regs) (q : SeqId) (n : Nat) : Word :=
  match n with
  | 0x00 => r.st.setWidth 32
  | 0x01 => r.fpc
  | 0x02 => r.mr.setWidth 32
  | 0x03 => r.mr.extractLsb' 32 32
  | 0x04 => r.selSp.setWidth 32
  | 0x05 => r.pc.setWidth 32
  | 0x06 => r.crc.cfg
  | 0x07 => r.crc.poly
  | 0x08 => r.crc.init
  | 0x09 => r.crc.xorout
  | 0x0A => r.ctxid.setWidth 32
  | 0x10 => r.vbr.setWidth 32
  | 0x11 => r.ecause.setWidth 32
  | 0x12 => r.eaddr.setWidth 32
  | 0x13 => r.lsp.setWidth 32
  | 0x14 => r.sp.setWidth 32
  | 0x15 => BitVec.ofNat 32 q.val
  | _ => 0

/-- Write of a special register: the low bits are taken (R131). -/
def Regs.setSr (r : Regs) (n : Nat) (v : Word) : Regs :=
  match n with
  | 0x00 => { r with st := stWrite r.st (v.setWidth 16) }
  | 0x01 => { r with fpc := fpcWrite r.fpc v }
  | 0x02 => { r with mr := r.mr.extractLsb' 32 32 ++ v }
  | 0x03 => { r with mr := v ++ r.mr.extractLsb' 0 32 }
  | 0x04 => r.setSelSp (v.setWidth 16)
  | 0x06 => { r with crc := { r.crc with cfg := crccfgWrite v } }
  | 0x07 => { r with crc := { r.crc with poly := v } }
  | 0x08 => { r with crc := { r.crc with init := v } }
  | 0x09 => { r with crc := { r.crc with xorout := v } }
  | 0x10 => { r with vbr := v.setWidth 16 &&& 0xFF80 }
  | 0x11 => { r with ecause := v.setWidth 16 &&& 0x07FF }
  | 0x12 => { r with eaddr := v.setWidth 16 }
  | 0x13 => { r with lsp := lspWrite (v.setWidth 8) }
  | 0x14 => { r with sp := v.setWidth 16 }
  | _ => r

/-! ### Descriptors (R132, R133) -/

abbrev Desc.base (d : Desc) : Nat := (d.extractLsb' 0 48).toNat
abbrev Desc.limit (d : Desc) : Nat := (d.extractLsb' 48 16).toNat
abbrev Desc.typ (d : Desc) : Nat := (d.extractLsb' 64 4).toNat
abbrev Desc.canR (d : Desc) : Bool := bit d 68
abbrev Desc.canW (d : Desc) : Bool := bit d 69
abbrev Desc.canX (d : Desc) : Bool := bit d 70
abbrev Desc.isP (d : Desc) : Bool := bit d 71

/-- The last valid offset (R132). -/
def Desc.extent (d : Desc) : Nat :=
  if Desc.typ d = 4 ∨ Desc.typ d = 5 then Desc.limit d * 0x10000 + 0xFFFF else Desc.limit d

/-- A window: type 4 or 5. -/
def Desc.window (d : Desc) : Bool := Desc.typ d = 4 || Desc.typ d = 5

/-- First engine address. -/
def Desc.first (d : Desc) : Nat := Desc.base d * 16

/-- Kinds of access (R135). -/
inductive Kind where
  | read | write | exec | sread | swrite | hold | descR | descW
  deriving DecidableEq, Repr

/-- The range of a scratch or context-table descriptor lies inside one range of R28. -/
def insideOneRange (first last : Nat) : Bool :=
  match placeOf first, placeOf last with
  | .scratch g _, .scratch g' _ => g = g'
  | .ctx _, .ctx _ => true
  | _, _ => false

/-- Region of an engine address or of a descriptor's base (R25). -/
def regionOf (a : Nat) : Nat := a / 2 ^ 50

/-- The region that a segment type demands (R132). -/
def regionFor (t : Nat) : Nat := if t = 4 then 0 else if t = 5 then 1 else 2

/-- sld_check (R133): the cause of the refusal, if any. -/
def sldCheck (n : BitVec 3) (d : Desc) : Option Byte :=
  if 7 ≤ Desc.typ d ∨ d.extractLsb' 72 56 ≠ 0 then some 0x33
  else if Desc.typ d = 0 then none
  else
    let reg := regionOf (Desc.first d)
    let last := Desc.first d + Desc.extent d
    if reg = 3 then some 0x34
    else if reg ≠ regionFor (Desc.typ d) then some 0x31
    else if Desc.window d && regionOf last ≠ reg then some 0x30
    else if !Desc.window d && !insideOneRange (Desc.first d) last then some 0x30
    else if n = 0 ∧ Desc.typ d ≠ 1 then some 0x31
    else if n = 7 ∧ Desc.typ d ≠ 3 then some 0x31
    else none

/-! ### The access check (R135) -/

/-- EADDR of a failed check (R137): the granule for a stream access through a window, else off[15:0]. -/
def checkEaddr (d : Desc) (off : Nat) (k : Kind) : Half :=
  if (k == .sread || k == .swrite) && Desc.window d then BitVec.ofNat 16 (off / 0x10000) else BitVec.ofNat 16 off

def Kind.needsR (k : Kind) : Bool := k == .read || k == .sread || k == .descR || k == .hold
def Kind.needsW (k : Kind) : Bool := k == .write || k == .swrite || k == .descW || k == .hold
def Kind.isDesc (k : Kind) : Bool := k == .descR || k == .descW
def Kind.isStream (k : Kind) : Bool := k == .sread || k == .swrite

/-- check of a descriptor d read as segment n: the first failing rule, or the engine address. `below` marks a stack
offset under 0, whose limit check fails whatever its value (R163). -/
def checkDesc (d : Desc) (priv : Bool) (n : BitVec 3) (off size : Nat) (k : Kind) (below : Bool := false) : Except Exn Nat :=
  let seg (c : Byte) : Except Exn Nat := .error { vec := 4, cause := c, seg := n, eaddr := checkEaddr d off k }
  let mis (c : Byte) : Except Exn Nat := .error { vec := 2, cause := c, seg := n, eaddr := checkEaddr d off k }
  if Desc.typ d = 0 then seg 0x31
  else if Desc.window d && !k.isStream then seg 0x32
  else if k == .exec && Desc.typ d ≠ 1 then seg 0x31
  else if k == .hold && Desc.typ d ≠ 6 then seg 0x31
  else if Desc.isP d && !priv then seg 0x31
  else if !priv && (Desc.typ d = 1 ∨ Desc.typ d = 2 ∨ Desc.typ d = 3 ∨ Desc.typ d = 6)
      && (match placeOf (Desc.first d) with | .ctx _ => true | _ => false) then seg 0x31
  else if (k.needsR && !Desc.canR d) || (k.needsW && !Desc.canW d) || (k == .exec && !Desc.canX d) then seg 0x31
  else if (k == .read || k == .write) && size = 2 && off % 2 ≠ 0 then mis 0x10
  else if (k == .read || k == .write || k == .exec || k == .hold) && size = 4 && off % 4 ≠ 0 then mis 0x11
  else if k.isDesc && off % 16 ≠ 0 then mis 0x11
  else if below || Desc.extent d < off + size - 1 then seg 0x30
  else .ok (Desc.first d + off)

/-- check(n, off, size, kind) through the copy that ST.PRIV selects (R123, R135). -/
def Regs.check (r : Regs) (n : BitVec 3) (off size : Nat) (k : Kind) (below : Bool := false) : Except Exn Nat :=
  checkDesc (r.seg n) r.priv n off size k below

/-! ### The memory behind an engine address -/

/-- What an access came to: a value, a fault (its BUSERR cause), a bank that is not awake, or an answer RETRY. -/
inductive Acc (α : Type) where
  | ok (s : State) (v : α)
  | bus (s : State) (cause : Byte)
  | wait (s : State)
  | retry
  deriving Repr

/-- A bank at full voltage (R261). -/
def Gal.bankAwake (x : Gal) (b : Fin 16) : Bool := bit x.awake b.val

/-- An access to a bank in retention wakes it and holds (R261). -/
def State.wakeBanks (s : State) (g : GalId) (off size : Nat) : State :=
  let mask (b : Fin 16) : Half := if (s.gal g).bankAwake b then 0 else 1#16 <<< b.val
  s.modGal g fun x => { x with waking := x.waking ||| mask (bankOf off) ||| mask (bankOf (off + size - 1)) }

/-- How gallery g meets a request of sequencer q (R30, R351): none served, some cause or RETRY. -/
inductive Door where
  | open | retry | bus (cause : Byte)
  deriving DecidableEq, Repr

def State.door (s : State) (q : SeqId) (g : GalId) : Door :=
  if !s.present g then .bus 0x21
  else if g = galOf q then .open
  else match (s.gal g).gstate with
    | .serving => .open
    | .squeezing | .squeezed => .retry
    | .fenced | .off | .retained => .bus 0x22

/-- A bank grants an access of sequencer q: the tie rotor of that side of each bank reached moves past the requester, which is
the sequencer in its own gallery and the fabric agent in another (R255, R398). -/
def State.bankGrant (s : State) (q : SeqId) (g : GalId) (write : Bool) (off n : Nat) : State :=
  let past : Fin 9 := if galOf q = g then ⟨(idxOf q).val + 1, by omega⟩ else 0
  let move (r : Vector (Fin 9) 16) : Vector (Fin 9) 16 := (banksOf off n).foldl (fun r (b : Fin 16) => r.set b past) r
  s.modGal g fun x => if write then { x with wrRotor := move x.wrRotor } else { x with rdRotor := move x.rdRotor }

/-- A read of n bytes at an engine address by sequencer q. -/
def State.memRead (s : State) (q : SeqId) (a n : Nat) : Acc (List Byte) :=
  match placeOf a with
  | .nowhere => .bus s 0x21
  | .ctx off =>
    let s := s.each ((List.range ((off + n - 1) / 32 - off / 32 + 1)).map fun i => BitVec.ofNat 16 (off / 32 + i))
      fun s c => s.ctxTouch c
    .ok s (s.mem.readBytes a n)
  | .scratch g off =>
    match s.door q g with
    | .bus c => .bus s c
    | .retry => .retry
    | .open =>
      if !(s.gal g).bankAwake (bankOf off) || !(s.gal g).bankAwake (bankOf (off + n - 1)) then .wait (s.wakeBanks g off n)
      else if s.poisoned a n then .bus (s.eccRead g a n) 0x20
      else .ok ((s.eccRead g a n).bankGrant q g false off n) (s.mem.readBytes a n)

/-- A write of bytes at an engine address by sequencer q; a context-table byte it may not write is discarded (R264). -/
def State.memWrite (s : State) (q : SeqId) (a : Nat) (bs : List Byte) : Acc Unit :=
  match placeOf a with
  | .nowhere => .bus s 0x21
  | .ctx _ => .ok { s with mem := s.mem.ctxStore a bs } ()
  | .scratch g off =>
    match s.door q g with
    | .bus c => .bus s c
    | .retry => .retry
    | .open =>
      if !(s.gal g).bankAwake (bankOf off) || !(s.gal g).bankAwake (bankOf (off + bs.length - 1)) then
        .wait (s.wakeBanks g off bs.length)
      else .ok ((s.store a bs).bankGrant q g true off bs.length) ()

/-- What enters (R237, second table). -/
inductive EKind where
  | fault
  | int (level : BitVec 3)
  | gate
  | trap
  deriving DecidableEq, Repr

/-- An entry: its vector, ECAUSE, EADDR, frame PC, the instruction's own PC, its kind (R237). -/
structure Entry where
  vec : Nat
  ecause : Half
  eaddr : Half
  framePc : Half
  ipc : Half
  kind : EKind
  deriving DecidableEq, Repr

/-- Outcome of an instruction's body. -/
inductive Res where
  /-- It retires; PC := PC + 4. -/
  | done (s : State)
  /-- It retires and transfers control. -/
  | jump (s : State) (pc : Half)
  /-- Its dispatch holds: no word issues, and the instruction stays (R65). -/
  | hold (s : State)
  /-- Its words have issued, and the state says what it waits for or that it has retired. -/
  | wait (s : State)
  /-- Answered RETRY: it returns to its boundary (R352). -/
  | retry
  /-- It raises a fault. -/
  | exn (s : State) (e : Exn)
  /-- It ends by an entry of its own (GATE, TRAP, BRK, LONG delivery). -/
  | entry (s : State) (e : Entry)
  deriving Repr

/-- A load through segment n (R135, R153): the bytes, or how it ends. -/
def State.load (s : State) (q : SeqId) (n : BitVec 3) (off size : Nat) (k : Kind) (cont : State → List Byte → Res) : Res :=
  match (s.regs q).check n off size k with
  | .error e => .exn s e
  | .ok a =>
    match s.memRead q a size with
    | .ok s v => cont s v
    | .bus s c => .exn s { vec := 3, cause := c, seg := n, eaddr := BitVec.ofNat 16 off }
    | .wait s => .hold s
    | .retry => .retry

/-- A store through segment n (R135, R153). -/
def State.storeSeg (s : State) (q : SeqId) (n : BitVec 3) (off : Nat) (bs : List Byte) (k : Kind) (below : Bool)
    (cont : State → Res) : Res :=
  match (s.regs q).check n off bs.length k below with
  | .error e => .exn s e
  | .ok a =>
    match s.memWrite q a bs with
    | .ok s _ => cont s
    | .bus s c => .exn s { vec := 3, cause := c, seg := n, eaddr := BitVec.ofNat 16 off }
    | .wait s => .hold s
    | .retry => .retry

/-! ### Offsets (R152) -/

/-- off and the new A[RS] of MINOR 0x0 to 0x3; none for another minor. -/
def Regs.offset (r : Regs) (f : FormR) (size : Nat) : Option (Half × Option Half) :=
  let a := r.A f.rs
  if f.minor = 0 then some (a, none)
  else if f.minor = 1 then some (a + r.H f.rx, none)
  else if f.minor = 2 then some (a, some (a + BitVec.ofNat 16 size))
  else if f.minor = 3 then some (a - BitVec.ofNat 16 size, some (a - BitVec.ofNat 16 size))
  else none

/-- Changes A[RS] where the addressing mode says so. -/
def Regs.updA (r : Regs) (rs : BitVec 5) : Option Half → Regs
  | none => r
  | some v => r.setA rs v

end Sys2Proof.Machine
end

