-- ==== Sys2Proof/Machine/Flags.lean ====
section
/-!
DEFINITION. Results and flags: the arithmetic of short and wide operations (R148, R149, R158, R159), the CRC steps
(R160) and the Jcc conditions (R162).
-/

namespace Sys2Proof.Machine

open Sys2Proof

/-- Which flags an operation updates, and to what. -/
structure Flags where
  z : Option Bool := none
  c : Option Bool := none
  n : Option Bool := none
  v : Option Bool := none
  p : Option Bool := none
  t : Option Bool := none
  deriving DecidableEq, Repr

def putOpt (st : Half) (i : Nat) : Option Bool → Half
  | none => st
  | some b => putBit st i b

/-- ST with the updated flags; a flag not listed is unchanged. -/
def Flags.apply (f : Flags) (st : Half) : Half :=
  putOpt (putOpt (putOpt (putOpt (putOpt (putOpt st stZ f.z) stC f.c) stN f.n) stV f.v) stP f.p) stT f.t

def Regs.flags (r : Regs) (f : Flags) : Regs := { r with st := f.apply r.st }

/-- The flags of b where it updates them, else those of a (R146). -/
def Flags.after (a b : Flags) : Flags :=
  { z := b.z.or a.z, c := b.c.or a.c, n := b.n.or a.n, v := b.v.or a.v, p := b.p.or a.p, t := b.t.or a.t }

def Regs.z (r : Regs) : Bool := bit r.st stZ
def Regs.c (r : Regs) : Bool := bit r.st stC
def Regs.n (r : Regs) : Bool := bit r.st stN
def Regs.v (r : Regs) : Bool := bit r.st stV
def Regs.t (r : Regs) : Bool := bit r.st stT

/-! ### Add, subtract, logic -/

/-- A result with the flags it sets. -/
structure Alu (w : Nat) where
  val : BitVec w
  fl : Flags

/-- a + b + cin: carry out of the top bit, signed overflow (R149). -/
def aluAdd {w : Nat} (a b : BitVec w) (cin : Bool) : Alu w :=
  let r := a + b + ofB w cin
  { val := r
    fl := { z := some (r == 0), c := some (2 ^ w ≤ a.toNat + b.toNat + cin.toNat), n := some r.msb,
            v := some (a.msb == b.msb && r.msb != a.msb) } }

/-- a - b - bin: C is 1 on borrow (R149). -/
def aluSub {w : Nat} (a b : BitVec w) (bin : Bool) : Alu w :=
  let r := a - b - ofB w bin
  { val := r
    fl := { z := some (r == 0), c := some (a.toNat < b.toNat + bin.toNat), n := some r.msb,
            v := some (a.msb != b.msb && r.msb != a.msb) } }

/-- Chained Z: (result = 0) AND the old Z (R149, R159). -/
def Alu.chain {w : Nat} (x : Alu w) (oldZ : Bool) : Alu w :=
  { x with fl := { x.fl with z := x.fl.z.map (· && oldZ) } }

/-- A logical result: Z and N. -/
def aluLogic {w : Nat} (r : BitVec w) : Alu w := { val := r, fl := { z := some (r == 0), n := some r.msb } }

/-- P from the result, for operations that update it. -/
def Alu.withP {w : Nat} (x : Alu w) : Alu w := { x with fl := { x.fl with p := some (parity x.val) } }

/-! ### Shifts and rotates (R149, R159) -/

inductive Shift where
  | shl | shr | asr | rol | ror
  deriving DecidableEq, Repr

/-- The result, and C where the count updates it: a count of 0 leaves the value and does not update C. -/
def shiftBy {w : Nat} (k : Shift) (x : BitVec w) (n : Nat) : BitVec w × Option Bool :=
  if n = 0 then (x, none)
  else match k with
    | .shl => (x <<< n, some (n ≤ w && x.getLsbD (w - n)))
    | .shr => (x >>> n, some (n ≤ w && x.getLsbD (n - 1)))
    | .asr => (x.sshiftRight n, some (if w ≤ n then x.msb else x.getLsbD (n - 1)))
    | .rol => (x.rotateLeft n, some ((x.rotateLeft n).getLsbD 0))
    | .ror => (x.rotateRight n, some ((x.rotateRight n).msb))

def aluShift {w : Nat} (k : Shift) (x : BitVec w) (n : Nat) : Alu w :=
  let (r, c) := shiftBy k x n
  { val := r, fl := { z := some (r == 0), c := c, n := some r.msb } }

/-! ### Bit operations -/

/-- Leading zero bits of a word (R158). -/
def clz32 (x : Word) : Nat := ((List.range 32).takeWhile fun i => !x.getLsbD (31 - i)).length

/-! ### CRC (R160) -/

/-- CRCCFG.WIDTH; a register of this model always holds 1 to 32. -/
def Crcp.width (p : Crcp) : Nat := (p.cfg &&& 0x3F).toNat
def Crcp.refin (p : Crcp) : Bool := bit p.cfg 6
def Crcp.refout (p : Crcp) : Bool := bit p.cfg 7

/-- Bits [w-1:0]. -/
def lowBits (x : Word) (w : Nat) : Word := x &&& BitVec.ofNat 32 (2 ^ w - 1)

/-- reflect(x, n). -/
def reflectW (x : Word) (n : Nat) : Word :=
  (List.range n).foldl (fun r i => if x.getLsbD (n - 1 - i) then r ||| (1#32 <<< i) else r) 0

def crcInit (p : Crcp) : Word :=
  let r := lowBits p.init p.width
  if p.refin then reflectW r p.width else r

/-- One bit of crc_step. -/
def crcBit (p : Crcp) (i : Word) (b : Bool) : Word :=
  let w := p.width
  if p.refin then
    let low := xor (i.getLsbD 0) b
    let i := i >>> 1
    if low then i ^^^ reflectW (lowBits p.poly w) w else i
  else
    let top := xor (i.getLsbD (w - 1)) b
    let i := lowBits (i <<< 1) w
    if top then i ^^^ lowBits p.poly w else i

/-- crc_step(I, b): one byte. -/
def crcStep (p : Crcp) (i : Word) (b : Byte) : Word :=
  let order := if p.refin then List.range 8 else (List.range 8).reverse
  lowBits (order.foldl (fun i k => crcBit p i (b.getLsbD k)) (lowBits i p.width)) p.width

/-- The bytes in order. -/
def crcBytes (p : Crcp) (i : Word) (bs : List Byte) : Word := bs.foldl (crcStep p) i

def crcFinish (p : Crcp) (i : Word) : Word :=
  let i := lowBits i p.width
  let o := if p.refin != p.refout then reflectW i p.width else i
  o ^^^ lowBits p.xorout p.width

/-- A CRC result with Z := (result[WIDTH-1:0] = 0) (R159). -/
def aluCrc (p : Crcp) (r : Word) : Alu 32 := { val := r, fl := { z := some (lowBits r p.width == 0) } }

/-- The named sets of R129, used by the engine's own check words (R17). -/
def crc32c : Crcp := {}
def crc16ibm : Crcp := { cfg := 0x10, poly := 0x1021, init := 0xFFFF, xorout := 0 }

/-- A whole CRC over bytes. -/
def crcOf (p : Crcp) (bs : List Byte) : Word := crcFinish p (crcBytes p (crcInit p) bs)

/-! ### Conditions of Jcc (R162) -/

def Regs.jcc (r : Regs) (m : BitVec 4) : Bool :=
  match m.toNat with
  | 0x0 => r.z
  | 0x1 => !r.z
  | 0x2 => r.c
  | 0x3 => !r.c
  | 0x4 => r.n
  | 0x5 => !r.n
  | 0x6 => r.v
  | 0x7 => !r.v
  | 0x8 => !r.c && !r.z
  | 0x9 => r.c || r.z
  | 0xA => r.n == r.v
  | 0xB => r.n != r.v
  | 0xC => !r.z && r.n == r.v
  | 0xD => r.z || r.n != r.v
  | 0xE => r.t
  | _ => !r.t

/-- ST bits a condition reads. -/
def jccMask (m : BitVec 4) : Half :=
  match m.toNat with
  | 0x0 | 0x1 => 0x01
  | 0x2 | 0x3 => 0x02
  | 0x4 | 0x5 => 0x04
  | 0x6 | 0x7 => 0x08
  | 0x8 | 0x9 => 0x03
  | 0xA | 0xB => 0x0C
  | 0xC | 0xD => 0x0D
  | _ => 0x20

/-! ### Short operations (R147, R148, R149) -/

/-- A short operation of a slot: CODE, D, S. -/
structure Short where
  code : BitVec 5
  d : BitVec 5
  s : BitVec 5
  deriving DecidableEq, Repr

def shortOf (x : BitVec 15) : Short := { code := x.extractLsb' 10 5, d := x.extractLsb' 5 5, s := x.extractLsb' 0 5 }

/-- The write set as a mask of bytes (R147). -/
def Short.writes (o : Short) : Word :=
  match o.code.toNat with
  | 0x00 | 0x07 | 0x08 | 0x0F | 0x1F => 0
  | 0x1B => 15#32 <<< (4 * (o.d.toNat / 4))
  | _ => viewBytes .b o.d

/-- Register bytes the operation reads, and ST bits it reads or updates (R213). -/
def Short.touch (o : Short) : Touch :=
  let d := tB o.d
  let s := tB o.s
  match o.code.toNat with
  | 0x00 | 0x1F => {}
  | 0x01 => d.or s
  | 0x02 => d
  | 0x03 | 0x05 | 0x07 => (d.or s).or (tSt 0x1F)
  | 0x04 | 0x06 | 0x08 => d.or (tSt 0x1F)
  | 0x09 | 0x0B | 0x0D | 0x0F | 0x10 | 0x18 | 0x19 | 0x1A | 0x1E => (d.or s).or (tSt 0x15)
  | 0x0A | 0x0C | 0x0E => d.or (tSt 0x15)
  | 0x11 => (d.or s).or (tSt 0x1F)
  | 0x12 | 0x13 => (d.or s).or (tSt 0x1D)
  | 0x14 | 0x15 | 0x16 | 0x17 => d.or (tSt (if o.s = 0 then 0x15 else 0x17))
  | 0x1B => ({ bytes := o.writes } : Touch).or (s.or (tSt 0x01))
  | _ => (d.or s).or (tSt 0x1F)

/-- What a short operation does on the old state: the flags, and its registers (R148). -/
def Short.run (o : Short) (r : Regs) : Regs × Flags :=
  let bd := r.B o.d
  let bs := r.B o.s
  let im : Byte := o.s.setWidth 8
  let put (x : Alu 8) : Regs × Flags := (r.setB o.d x.val, x.withP.fl)
  let look (x : Alu 8) : Regs × Flags := (r, x.withP.fl)
  let noC (x : Alu 8) : Alu 8 := { x with fl := { x.fl with c := none } }
  match o.code.toNat with
  | 0x01 => (r.setB o.d bs, {})
  | 0x02 => (r.setB o.d im, {})
  | 0x03 => put (aluAdd bd bs false)
  | 0x04 => put (aluAdd bd im false)
  | 0x05 => put (aluSub bd bs false)
  | 0x06 => put (aluSub bd im false)
  | 0x07 => look (aluSub bd bs false)
  | 0x08 => look (aluSub bd im false)
  | 0x09 => put (aluLogic (bd &&& bs))
  | 0x0A => put (aluLogic (bd &&& im))
  | 0x0B => put (aluLogic (bd ||| bs))
  | 0x0C => put (aluLogic (bd ||| im))
  | 0x0D => put (aluLogic (bd ^^^ bs))
  | 0x0E => put (aluLogic (bd ^^^ im))
  | 0x0F => look (aluLogic (bd &&& bs))
  | 0x10 => put (aluLogic (~~~bs))
  | 0x11 => put (aluSub 0 bs false)
  | 0x12 => put (noC (aluAdd bs 1 false))
  | 0x13 => put (noC (aluSub bs 1 false))
  | 0x14 => put (aluShift .shl bd o.s.toNat)
  | 0x15 => put (aluShift .shr bd o.s.toNat)
  | 0x16 => put (aluShift .rol bd o.s.toNat)
  | 0x17 => put (aluShift .ror bd o.s.toNat)
  | 0x18 => put (aluLogic (bs.rotateLeft 4))
  | 0x19 => put (aluLogic (ofB 8 (parity bs)))
  | 0x1A => put (aluLogic (bitRev bs))
  | 0x1B =>
    let w := aluCrc r.crc (crcStep r.crc (r.W (o.d >>> 2)) bs)
    (r.setW (o.d >>> 2) w.val, w.fl)
  | 0x1C => put ((aluAdd bd bs r.c).chain r.z)
  | 0x1D => put ((aluSub bd bs r.c).chain r.z)
  | 0x1E => put (aluLogic (bd &&& ~~~bs))
  | _ => (r, {})

/-- Replaces the bytes of a mask by those of another register file. -/
def Regs.mergeBytes (r x : Regs) (m : Word) : Regs :=
  { r with b := Vector.ofFn fun i => if m.getLsbD i.val then x.b[i] else r.b[i] }

/-- Both slots on the old state, then the flag merge (R146). -/
def runPair (a b : Short) (r : Regs) : Regs :=
  let (ra, fa) := a.run r
  let (rb, fb) := b.run r
  (((r.mergeBytes ra a.writes).mergeBytes rb b.writes)).flags (fa.after fb)

/-- The cause of an ILLEGAL pair, lowest first (R146). -/
def pairCause (w : Word) : Option Byte :=
  let a := shortOf (w.extractLsb' 16 15)
  let b := shortOf (w.extractLsb' 1 15)
  if a.code = 0x1F ∨ b.code = 0x1F then some 0x03
  else if w.getLsbD 0 then some 0x04
  else if (a.writes &&& b.writes) ≠ 0 then some 0x05
  else none

end Sys2Proof.Machine
end

