-- ==== Sys2Proof/Machine/Entry.lean ====
section
/-!
DEFINITION. The shared services of a sequencer: landings (R165, R212), staging-line release (R208), completion of a
work item (R282, R400), sequencer reset and third fault (R249), exception entry with DOUBLE (R237, R246), RETS (R240),
and the context switch (R268).
-/

namespace Sys2Proof.Machine

open Sys2Proof

/-! ### Cycles and tokens (R44 to R49, R399) -/

/-- The cost of a debit class (R49). -/
def State.cost (s : State) (cls : Nat) : Nat :=
  let w := s.pow.budcost[cls / 2 % 8]'(Nat.mod_lt _ (by omega))
  if cls % 2 = 0 then w.toNat % 0x1000 else w.toNat / 0x10000 % 0x1000

/-- Nothing issues: the sequencer is budget-stalled, or 256 cc have passed since BUDX (R46). -/
def Bud.stuck (b : Bud) : Bool := b.stall || (b.budx && decide (256 ≤ b.cdebt))

/-- One cc with a context bound (R44, R45): CYCLEFT counts; after BUDX the cycle adds to CDEBT. -/
def Bud.cc (b : Bud) : Bud :=
  let b : Bud := if b.budx then { b with cdebt := Nat.min 256 (b.cdebt + 1) } else b
  if b.cycleft ≤ 1 then { b with cycleft := 0, budx := true } else { b with cycleft := b.cycleft - 1 }

/-- n cc in which no word issues. -/
def Bud.wait (b : Bud) : Nat → Bud
  | 0 => b
  | n + 1 => b.cc.wait n

/-- A debit: each carry out of the accumulator is one whole token (R48), taken from TOKLEFT, else added to TDEBT (R45), which
stalls at 511 (R53). A debit that brings TOKLEFT to 0 asserts BUDX. -/
def Bud.debit (b : Bud) (ctx : Bool) (cost : Nat) : Bud :=
  let f := b.frac.toNat + cost
  let b : Bud := { b with frac := BitVec.ofNat 12 f }
  if f < 4096 then b else
  let b : Bud := { b with bound := if ctx then b.bound + 1 else b.bound }
  if 0 < b.tokleft then { b with tokleft := b.tokleft - 1, budx := b.budx || b.tokleft = 1 }
  else { b with tdebt := Nat.min 511 (b.tdebt + 1), stall := b.stall || 510 ≤ b.tdebt }

/-- A cycle in which a word of a class issues, and the tokens debited so far; a stalled sequencer issues no word. -/
def Bud.cycle (ctx : Bool) (cost : Nat) (e : Bud × Nat) : Bud × Nat :=
  if e.1.stuck then e
  else ((if ctx then e.1.cc else e.1).debit ctx cost, e.2 + (e.1.frac.toNat + cost) / 4096)

/-- The budgets after one word of each listed class and h cc of holds, and the tokens they debited. -/
def State.spent (s : State) (q : SeqId) (cls : List (BitVec 4)) (h : Nat) : Bud × Nat :=
  let ctx := (s.regs q).ctxid != 0xFFFF
  let e := cls.foldl (fun e c => Bud.cycle ctx (s.cost c.toNat) e) ((s.seq q).bud, 0)
  (if ctx then e.1.wait h else e.1, e.2)

/-- A sequencer issues one word of each listed class, and holds for h cc: its budgets, the ledger's count of tokens debited
and the measured power take them (R48, R54, R57). -/
def State.cycles (s : State) (q : SeqId) (cls : List (BitVec 4)) (h : Nat := 0) : State :=
  let t := (s.modSeq q fun x => { x with bud := (s.spent q cls h).1 }).led (galOf q) 17 (s.spent q cls h).2
  { t with pow := { s.pow with debited := s.pow.debited + (s.spent q cls h).2 } }

/-- One word of a class. -/
def State.cycle (s : State) (q : SeqId) (cls : Nat) : State := s.cycles q [BitVec.ofNat 4 cls]

/-- One cc in which no word issues. -/
def Seq.spendCc (x : Seq) : Seq := if x.regs.ctxid = 0xFFFF then x else { x with bud := x.bud.cc }

/-- The cc of a wait that has ended, spent in class NONE: they count in CYCLEFT and debit nothing; how many beyond the n that
a rule asks for is free (R399, log 34). -/
def State.waited (s : State) (q : SeqId) (n : Nat) : State := (s.cycles q [] (n + Config.freeHold s.freeCtr)).fresh

/-- The words of a routine: those whose debit class R399 fixes, how many more its figure gives (R145, R238, R403), and whether
the manual leaves their number open. -/
structure Words where
  first : List (BitVec 4) := []
  more : Nat := 0
  loose : Bool := false
  deriving DecidableEq, Repr

/-- A routine for which the manual gives no figure. -/
def wordsLoose : Words := { loose := true }

/-- The classes of a routine's words. -/
def Words.classes (w : Words) (n : Nat) : List (BitVec 4) :=
  w.first ++ (List.range w.more).map (Config.freeClass n) ++ (if w.loose then Config.freeWords n else [])

/-- The words of a routine issue, with the holds of this run (log 34). -/
def State.routine (s : State) (q : SeqId) (w : Words) : State :=
  (s.cycles q (w.classes s.freeCtr) (Config.freeHold s.freeCtr)).fresh

/-! ### The hold-up inequality (R56) -/

def Power.holdEn (p : Power) : Bool := bit p.holdcfg 31
def Power.wrtok (p : Power) : Nat := (p.holdcfg.extractLsb' 20 8).toNat
def Power.base (p : Power) : Nat := (p.holdcfg.extractLsb' 0 20).toNat

/-- OUT: tokens outstanding over every sequencer. -/
def State.outTok (s : State) : Int := (s.allSeqs.map fun q => ((s.seq q).bud.tokleft : Int) - (s.seq q).bud.tdebt).sum
/-- RESV: the base reservation and those of all writes in flight. -/
def State.resvTok (s : State) : Nat :=
  64 * s.pow.base + (s.galleries.map fun g => ((s.gal g).md.tags.map fun t => t.resv).sum).sum
/-- Tokens that writes in flight hold. -/
def State.resvHeld (s : State) : Nat := (s.galleries.map fun g => ((s.gal g).md.tags.map fun t => t.resv).sum).sum
/-- The ledger counts the reservations released since state s0 (R57, code 0x6). -/
def State.countReleased (s s0 : State) : State :=
  { s with ledger := { s.ledger with resv := s.ledger.resv.set 3 (s.ledger.resv[3] + BitVec.ofNat 32 (s0.resvHeld - s.resvHeld)) } }
/-- The ledger counts a reservation made. -/
def State.countReserved (s : State) (n : Nat) : State :=
  { s with ledger := { s.ledger with resv := s.ledger.resv.set 2 (s.ledger.resv[2] + BitVec.ofNat 32 n) } }
/-- RESV + OUT with a further reservation stays within HOLD. -/
def State.holdFits (s : State) (extra : Nat) : Bool :=
  decide (((s.resvTok + extra : Nat) : Int) + s.outTok ≤ 64 * s.pow.hold.toNat)

/-- Started units of 4 KiB. -/
def pages (len : Nat) : Nat := (len + 4095) / 4096

/-! ### Landings -/

/-- A product lands in MRH:MRL (R165). -/
def Seq.landProduct (x : Seq) (p : Product) : Seq :=
  { x with regs := { x.regs with mr := if p.acc then x.regs.mr + p.value else p.value },
           cond := { x.cond with mulland := true } }

/-- A pool operation lands: POOLR, its destination, flags and FPC fields, and a trap with ML below 7 (R212, R230). -/
def Seq.landPool (x : Seq) (p : PoolOp) : Seq :=
  let r := x.regs
  let r := match p.dest with
    | none => r
    | some (sz, n) => r.setView (if sz = 1 then .b else if sz = 2 then .h else .w) n p.result.toNat
  let r := { r with st := (r.st &&& ~~~p.stMask) ||| (p.stVal &&& p.stMask) }
  let r := if p.fp then { r with fpc := r.fpc ||| (p.flags.setWidth 32 <<< 16) } else r
  let te := r.fpc.extractLsb' 8 5
  let trap := p.fp && (p.flags &&& te) != 0 && decide (r.ml < 7)
  let r := if trap then { r with st := putBit r.st stFPP true, fpc := putBits r.fpc 24 p.flags } else r
  { x with
    regs := r, pool := none, poolr := p.result, poolrdy := true, wait := if x.wait = .pool then .none else x.wait
    exc := if trap then { x.exc with trapAddr := p.pc } else x.exc
    cond := { x.cond with poolx := trap, divz := p.divz.getD x.cond.divz } }

/-- Every product and pool operation in flight lands (R166, R214). -/
def Seq.landAll (x : Seq) : Seq :=
  let x := { x.prods.foldl Seq.landProduct x with prods := [] }
  match x.pool with
  | none => x
  | some p => x.landPool p

def State.landAll (s : State) (q : SeqId) : State := s.modSeq q Seq.landAll

/-! ### Staging lines -/

/-- Which staging line a request serves. -/
def Purpose.line : Purpose → Option (Fin 16)
  | .chunkR l => some l
  | .spec l => some l
  | _ => none

/-- The transfer a request belongs to. -/
def Purpose.xid : Purpose → Option Nat
  | .fetch x _ _ => some x
  | .put x _ => some x
  | _ => none

/-- A WRITE (R270). -/
def Purpose.isWrite : Purpose → Bool
  | .put _ _ => true
  | .chunkW _ _ => true
  | _ => false
/-- A READ with SPEC. -/
def Purpose.isSpec : Purpose → Bool
  | .spec _ => true
  | _ => false

/-- Frees a line: a reply in flight goes to the sump, a request not issued is withdrawn (R208, R182). -/
def State.freeLine (s : State) (g : GalId) (i : Fin 16) : State :=
  s.modGal g fun x => { x with
    lines := x.lines.set i {}
    md := { x.md with
      waiting := x.md.waiting.filter fun m => m.purpose.line != some i
      tags := x.md.tags.map fun t => if t.req.purpose.line == some i then { t with sump := true } else t } }

/-- Releases the unbound run-ahead lines of a gallery that match; RACNT.REL counts each (R208). -/
def State.releaseLines (s : State) (g : GalId) (p : Line → Bool) : State :=
  s.each (List.finRange 16) fun s i =>
    let l := (s.gal g).lines[i]
    if l.busy && !l.chunk && l.bound.isNone && p l then
      (s.freeLine g i).modSeq l.seq fun x => { x with ra := { x.ra with rel := satInc8 x.ra.rel } }
    else s

/-- A write response releases every unbound run-ahead line it overlaps, in every gallery (R208). -/
def State.releaseOverlap (s : State) (addr len : Nat) : State :=
  s.each s.galleries fun s g => s.releaseLines g fun l => decide (l.e < addr + len) && decide (addr < l.e + l.m)

/-- Frees the chunk lines a sequencer holds (R182). -/
def State.freeChunks (s : State) (q : SeqId) : State :=
  s.each (List.finRange 16) fun s i =>
    let l := (s.gal (galOf q)).lines[i]
    if l.busy && l.chunk && l.seq = q then s.freeLine (galOf q) i else s

/-- Withdraws the requests that wait and match. -/
def State.withdraw (s : State) (g : GalId) (p : MReq → Bool) : State :=
  s.modMd g fun m => { m with waiting := m.waiting.filter fun r => !p r }

/-- Write requests of a sequencer's long instruction are abandoned: those not issued are withdrawn, the others go on,
their replies to the sump and their missing bytes sent as 0 (R183, R274). -/
def State.dropWrites (s : State) (q : SeqId) : State :=
  let own (r : MReq) : Bool := r.seq = q && (match r.purpose with | .chunkW _ _ => true | _ => false)
  let closed (p : Purpose) : Purpose := match p with | .chunkW d _ => .chunkW d true | p => p
  let drop (t : Tag) : Tag :=
    if own t.req then { t with sump := true, req := { t.req with purpose := closed t.req.purpose } } else t
  (s.withdraw (galOf q) own).modMd (galOf q) fun m => { m with tags := m.tags.map drop, unsent := m.unsent.map drop }

/-- What a sequencer waits for in its channel is given up: chunk lines and chunk writes of a long instruction, and the
request of a FETCH or PUT that was not issued (R182, R183, R187); with the wait ends its run-ahead (R204). -/
def State.abandon (s : State) (q : SeqId) : State :=
  let s := ((s.freeChunks q).dropWrites q).modSeq q fun x => { x with ra := { x.ra with shadow := none } }
  match (s.seq q).wait with
  | .media rid => s.withdraw (galOf q) fun r => r.seq = q && r.rid = rid
  | _ => s

/-! ### Transfers of the MP (R402) -/

/-- Takes one of the values a rule allows (log 3). -/
def State.choose {α : Type} (s : State) : List α → Option (α × State)
  | [] => none
  | x :: xs => some ((x :: xs).getD (Config.freeChoice s.freeCtr % (xs.length + 1)) x, s.fresh)

/-- The MP's request descriptor: CTX 0xFFFF, TENANT 0, SEQ 0xFF (R270). -/
def State.mpReq (s : State) (g : GalId) (write : Bool) (addr len : Nat) : MReq :=
  { rid := (s.gal g).md.nextRid, addr := addr, len := len, ctx := 0xFFFF, tenant := 0, seq := seqId g 0
    purpose := if write then .put 0 0 else .fetch 0 false 0, mp := true }

/-- The MP issues a request on a gallery's channel under a tag. The credits it takes, and those that the chip grants for it,
come to nothing within the step (log 86). -/
def State.mpIssue (s : State) (g : GalId) (tag : Fin 1024) (r : MReq) : State :=
  let s := s.modMd g fun m => { m with lastReq := some (tag, r), nextRid := m.nextRid + 1, issues := m.issues + 1 }
  let n := pages r.len
  let s := if r.purpose.isWrite then (s.led g 8 ((r.len + 15) / 16)).led g 9 ((r.len + 15) / 16) else (s.led g 4 n).led g 5 n
  ((s.led g 0 1).led g 1 1).led g 14 1

/-- A transfer of the MP that is answered within its step: a tag that is free, the request, the response. -/
def State.mpTransfer (s : State) (g : GalId) (write : Bool) (addr len : Nat) : State :=
  let free := (List.finRange 1024).filter fun i => !(s.gal g).md.tags.any fun t => t.tag == i
  match s.choose free with
  | none => s
  | some (tag, s) => (s.mpIssue g tag (s.mpReq g write addr len)).led g 15 1

/-- A write of the MP to buffer memory on a gallery's channel: its response releases the run-ahead lines it overlaps (R208). -/
def State.mpWrite (s : State) (g : GalId) (a : Nat) (bs : List Byte) : State :=
  ((s.mpTransfer g true a bs.length).store a bs).releaseOverlap a bs.length

/-- A read of buffer memory by the MP on a gallery's channel. -/
def State.mpRead (s : State) (g : GalId) (a n : Nat) : State × List Byte :=
  (s.mpTransfer g false a n, s.mem.readBytes a n)

/-! ### Digest sessions -/

/-- Closes a session; a transaction of its that is in progress is abandoned: its answer is ignored (R285). -/
def State.closeSession (s : State) (i : Fin 256) : State :=
  { s with dg := { s.dg with
      txn := match s.dg.txn with | some (t, j) => if i = j then some (.abort, j) else some (t, j) | none => none
      ses := s.dg.ses.set i {}
      waiting := s.dg.waiting.filter (· != i)
      holder := if s.dg.holder = some i then none else s.dg.holder
      cmpWait := if s.dg.cmpWait = some i then none else s.dg.cmpWait } }

/-- The session of a context, if one is open (R285). -/
def State.sessionOf (s : State) (c : Half) : Option (Fin 256) :=
  (List.finRange 256).find? fun i => i.val < 252 && s.dg.ses[i].opened && s.dg.ses[i].ctx == c

def State.closeCtxSession (s : State) (c : Half) : State :=
  match s.sessionOf c with
  | none => s
  | some i => s.closeSession i

/-! ### Completion (R281, R282) -/

def stDONE : Byte := 0
def stFAILED : Byte := 1
def stRETURNED : Byte := 2

/-- A record enters the FIFO; the ledger counts it for the gallery that accepted the item (R57). Records beyond the 64
entries are those of items that hardware ended while the FIFO was full: they wait in order (R282, log 10). -/
def State.postRecord (s : State) (scope : Option GalId) (c : Completion) : State :=
  let s := { s with work := { s.work with fifo := s.work.fifo ++ [c] } }
  match scope with
  | none => s
  | some g => s.led g 22 1

/-- A work item ends (R282): its record, the table entry, its digest session. `seqn` is 0xFF where no sequencer ran it. -/
def State.finishItem (s : State) (it : Item) (status : Byte) (cause : Byte) (result : Word) (seqn : Byte) : State :=
  let c := it.ctx
  let broken := s.ctxState c == ctxBROKEN && cause != 0x08
  let status := if broken then stFAILED else status
  let cause := if broken then 0x04 else cause
  let ret := status == stRETURNED
  let t := (s.plant.ticknum.setWidth 32 - BitVec.ofNat 32 (s.ctxField c 0x18 4) + 1#32).toNat
  let ticks : BitVec 24 := if ret || !it.started then 0 else BitVec.ofNat 24 (Nat.min 0xFFFFFF t)
  let tokens : Word := if ret then 0 else BitVec.ofNat 32 (s.ctxField c 0x1C 4)
  let res : Word := if cause = 0x00 ∨ cause = 0x01 ∨ cause = 0x13 then result else 0
  let s := s.postRecord (some it.scope)
    { ctx := c, status := status, cause := cause, result := res, ticks := ticks, seq := seqn, tokens := tokens }
  let s := if cause = 0x04 ∨ cause = 0x08 then s else (s.setCtxState c ctxOPEN).setCtxField c 3 1 0
  if ret then s else s.closeCtxSession c

/-- TOKENS of the table takes the tokens debited while bound (R263). -/
def State.tokensOut (s : State) (q : SeqId) : State :=
  let x := s.seq q
  if x.regs.ctxid = 0xFFFF then s else
  let c := x.regs.ctxid
  (s.setCtxField c 0x1C 4 ((s.ctxField c 0x1C 4 + x.bud.bound.toNat) % 2 ^ 32)).modSeq q
    fun x => { x with bud := { x.bud with bound := 0 } }

/-- A CTX trace packet (R382): 0 bind, 1 park, 2 completion, 3 pre-emption. -/
def State.ctxPacket (s : State) (q : SeqId) (op : Byte) (c : Half) : State :=
  s.seqPacket q 3 0x04 ([op, 0] ++ leBytes 2 c.toNat ++ leBytes 4 (s.ctxField c 0x1C 4) ++ [0, 0])

/-- The running item of a sequencer ends; its registers are not stored here. -/
def State.endRunning (s : State) (q : SeqId) (status cause : Byte) (result : Word) : State :=
  match (s.seq q).running with
  | none => s
  | some it =>
    let s := s.tokensOut q
    let s := s.finishItem it status cause result (BitVec.ofNat 8 q.val)
    let s := s.releaseLines (galOf q) fun l => l.seq = q && l.ctx == it.ctx
    let s := s.ctxPacket q 2 it.ctx
    s.modSeq q fun x => { x with running := none, regs := { x.regs with ctxid := 0xFFFF }, quantumUp := false }

/-- The running item ends by a fault of the sequencer, a fence, a kill or power loss. -/
def State.dropRunning (s : State) (q : SeqId) (status cause : Byte) : State := s.endRunning q status cause 0

/-- The prefetched item of a sequencer is returned. A parked item that waits in the slot (log 11) is returned as well. -/
def State.dropPrefetch (s : State) (q : SeqId) (cause : Byte) : State :=
  match (s.seq q).prefetch with
  | none => s
  | some it => (s.finishItem it stRETURNED cause 0 it.ran).modSeq q fun x => { x with prefetch := none }

/-! ### The save area (R266) -/

/-- Bytes 0x00 to 0x5F of the save area. -/
def Regs.saveLow (r : Regs) : List Byte :=
  r.b.toList ++ (r.a.toList.map fun a => leBytes 2 a.toNat).flatten ++ leBytes 2 r.pc.toNat ++ leBytes 2 r.sp.toNat
    ++ leBytes 2 (putBit r.st stSHORT false).toNat ++ [0, 0] ++ leBytes 4 r.fpc.toNat ++ [0, 0, 0, 0]
    ++ leBytes 8 r.mr.toNat ++ leBytes 4 r.crc.cfg.toNat ++ leBytes 4 r.crc.poly.toNat ++ leBytes 4 r.crc.init.toNat
    ++ leBytes 4 r.crc.xorout.toNat ++ List.replicate 8 0

/-- Bytes 0x80 to 0xFF. -/
def Regs.saveSegs (r : Regs) : List Byte := (r.s.toList.map fun d => leBytes 16 d.toNat).flatten

/-- A field of an image. -/
def imgNat (img : List Byte) (off n : Nat) : Nat := ofLeBytes ((img.drop off).take n)

/-- The context registers as an image gives them. -/
def Regs.load (r : Regs) (img : List Byte) : Regs :=
  { r with
    b := Vector.ofFn fun i => BitVec.ofNat 8 (imgNat img i.val 1)
    a := Vector.ofFn fun i => BitVec.ofNat 16 (imgNat img (0x20 + 2 * i.val) 2)
    pc := BitVec.ofNat 16 (imgNat img 0x30 2)
    sp := BitVec.ofNat 16 (imgNat img 0x32 2)
    st := BitVec.ofNat 16 (imgNat img 0x34 2) &&& 0x3FFF
    fpc := fpcWrite (BitVec.ofNat 32 (imgNat img 0x38 4)) (BitVec.ofNat 32 (imgNat img 0x38 4))
    mr := BitVec.ofNat 64 (imgNat img 0x40 8)
    crc := { cfg := crccfgWrite (BitVec.ofNat 32 (imgNat img 0x48 4))
             poly := BitVec.ofNat 32 (imgNat img 0x4C 4)
             init := BitVec.ofNat 32 (imgNat img 0x50 4)
             xorout := BitVec.ofNat 32 (imgNat img 0x54 4) }
    s := Vector.ofFn fun i => BitVec.ofNat 128 (imgNat img (0x80 + 16 * i.val) 16) }

/-- Where a context's image stands: its slot while RESID = 1, else its save area. -/
def State.ctxImageAddr (s : State) (c : Half) : Nat := if s.ctxFlag c 0 then s.ctxSlot c else s.ctxSave c

/-- Stores the registers of a bound context (R268). -/
def State.saveRegs (s : State) (q : SeqId) (c : Half) : State :=
  let a := s.ctxImageAddr c
  let r := s.regs q
  let s := (s.store a r.saveLow).store (a + 0x80) r.saveSegs
  if s.ctxFlag c 0 then s.setCtxFlag c 1 true else s

/-- Notes that a context was unbound, for the choice of an eviction (R267). -/
def State.noteUnbound (s : State) (g : GalId) (c : Half) : State :=
  s.modGal g fun x => { x with unboundOrder := (x.unboundOrder.filter (· != c)) ++ [c] }

/-- The runtime completes the running item (R400): locks break, the context's registers are stored with the result word
at 0x74, and the record enters the FIFO. The caller has seen that the FIFO has room. -/
def State.completeItem (s : State) (q : SeqId) (status cause : Byte) (result : Word) : State :=
  match (s.seq q).running with
  | none => s
  | some it =>
    let s := s.breakLock q
    let s := s.saveRegs q it.ctx
    let s := s.store (s.ctxImageAddr it.ctx + 0x74) (leBytes 4 result.toNat)
    let s := s.noteUnbound (galOf q) it.ctx
    s.endRunning q status cause result

/-! ### Sequencer reset and third fault -/

/-- The instruction queue is flushed, and with it what its head has met (R134, R238). -/
def Seq.flush (x : Seq) : Seq :=
  { x with
    mic := { x.mic with head := .empty, ahead := [], pairGo := false }
    dbg := { x.dbg with bpSkip := false } }

/-- Sequencer reset (R249 step 5, R96): word 0 issues once a control store has been committed. -/
def Seq.reset (x : Seq) : Seq :=
  { x with
    regs := {}, mic := {}, cond := {}, prods := [], pool := none, poolr := 0, poolrdy := false
    exc := { x.exc with dbl := false, origv := 0, origcause := 0, lspBefore := 0x40, irqpend := 0,
                        wdcount := x.exc.wdperiod, trapAddr := 0 }
    bud := { x.bud with frac := 0, bound := 0 }
    ra := { x.ra with shadow := none }
    dbg := { x.dbg with halted := false, defer := false, why := 0, defcnt := 0, steps := 0, bpSkip := false, ubSkip := false, rope := none }
    dhalt := false, unbind := none, wait := .none, lock := none, quantumUp := false
    run := if x.store.valid then .word0 else .reset }

/-- EXCST (R245). -/
def Exc.excst (e : Exc) : Word :=
  putBits (putBits (ofB 32 e.dbl <<< 31) 16 e.origv) 0 e.origcause

/-- Third fault (R248, R249): the sequencer resets alone, its items end, a TRIPLE record is written. -/
def State.thirdFault (s : State) (q : SeqId) (code : Byte) (framePc : Half) : State :=
  let x := s.seq q
  let r := x.regs
  let s := s.modSeq q fun x => { x with prods := [], pool := none }
  let s := s.abandon q
  let s := s.releaseLines (galOf q) fun l => l.seq = q
  let s := s.breakLock q
  let s := s.dropRunning q stFAILED 0x03
  let s := s.dropPrefetch q 0x15
  let s := s.record 4 (recSrc 0 (galOf q).val q.val) .important
    ([code, 0] ++ leBytes 2 r.ctxid.toNat ++ leBytes 2 framePc.toNat ++ leBytes 2 r.st.toNat ++ leBytes 2 r.ecause.toNat
      ++ leBytes 2 r.eaddr.toNat ++ leBytes 4 x.exc.excst.toNat)
  s.modSeq q Seq.reset

/-! ### The context switch (R268) -/

/-- Slots of a gallery in use (R267). -/
def State.slotsUsed (s : State) (g : GalId) : List Nat :=
  (s.ctxListed.filter fun c => s.ctxFlag c 0 && s.ctxHome c = g).map fun c => s.ctxField c 4 2 % 4096

/-- Slots of the banks in CTXBANKS that no resident copy occupies. -/
def State.slotsFree (s : State) (g : GalId) : List Nat :=
  let used := s.slotsUsed g
  ((List.finRange 16).filter fun b => bit (s.gal g).ctxbanks b.val).flatMap fun b =>
    ((List.range 256).map fun i => b.val * 256 + i).filter fun n => !used.contains n

/-- The context to evict: OPEN or PARKED, resident here, unbound longest ago (R267). -/
def State.evictee (s : State) (g : GalId) : Option Half :=
  let cand := s.ctxListed.filter fun c =>
    s.ctxFlag c 0 && s.ctxHome c = g && (s.ctxState c == ctxOPEN || s.ctxState c == ctxPARKED)
  match (s.gal g).unboundOrder.find? fun c => cand.contains c with
  | some c => some c
  | none => cand.head?

/-- A write of the MP to buffer memory, with its reservation made and released (R56, R402). -/
def State.writeBack (s : State) (g : GalId) (a : Nat) (bs : List Byte) : State :=
  let n := if s.pow.holdEn then s.pow.wrtok * pages bs.length else 0
  let s := (s.mpWrite g a bs).countReserved n
  { s with ledger := { s.ledger with resv := s.ledger.resv.set 3 (s.ledger.resv[3] + BitVec.ofNat 32 n) } }

/-- The write-back of a copy finds room under the hold-up rule, or there is none to make (R56, R267). -/
def State.evictFits (s : State) (c : Half) : Bool :=
  !s.ctxFlag c 1 || !s.pow.holdEn || s.holdFits s.pow.wrtok

/-- Writes the resident copy back if it is DIRTY, and gives the slot up. -/
def State.evict (s : State) (c : Half) : State :=
  let s := if s.ctxFlag c 1 then
      let (s, bs) := s.scratchRead (s.ctxSlot c) 256
      s.writeBack (s.ctxHome c) (s.ctxSave c) bs
    else s
  (s.setCtxFlag c 0 false).setCtxFlag c 1 false

/-- A slot for an incoming context: a free one, or that of an evicted context; none where CTXBANKS gives no slot, or while the
write of the evicted copy finds no room in the hold-up report. -/
def State.takeSlot (s : State) (g : GalId) : Option (Nat × State) :=
  match s.choose (s.slotsFree g) with
  | some r => some r
  | none =>
    match s.evictee g with
    | none => none
    | some c => if s.evictFits c then some (s.ctxField c 4 2 % 4096, s.evict c) else none

/-- Brings a context's image into a slot (R268); none while no slot can be had. -/
def State.makeResident (s : State) (c : Half) : Option State :=
  if s.ctxFlag c 0 then some s else
  match s.takeSlot (s.ctxHome c) with
  | none => none
  | some (n, s) =>
    let s := s.setCtxField c 4 2 n
    let (s, bs) := s.mpRead (s.ctxHome c) (s.ctxSave c) 256
    let s := s.store (scratchAddr (s.ctxHome c) (n * 256)) bs
    some ((s.setCtxFlag c 0 true).setCtxFlag c 1 false)

/-- The runtime's start of a new item: PC := ENTRY with RES clear, the entry offset and arguments in the save area, TSTART
and TOKENS (R263, R266, R177). -/
def State.startItem (s : State) (c : Half) (it : Item) : State :=
  if it.started then s else
  let a := s.ctxSlot c
  let st := putBit (BitVec.ofNat 16 (s.mem.readLE (a + 0x34) 2)) stRES false
  let s := s.store (a + 0x30) (leBytes 2 it.entry.toNat)
  let s := s.store (a + 0x34) (leBytes 2 st.toNat)
  let s := s.store (a + 0x60) (leBytes 2 it.entry.toNat)
  let s := s.store (a + 0x64) ((it.args.toList.map fun w => leBytes 4 w.toNat).flatten)
  let s := s.setCtxFlag c 1 true
  let s := s.setCtxField c 0x18 4 (s.plant.ticknum.toNat % 2 ^ 32)
  s.setCtxField c 0x1C 4 0

/-- The first descriptor of an image that SLD refuses (R133, R138). -/
def imgRefused (img : List Byte) : Option (Fin 8 × Byte) :=
  (List.finRange 8).findSome? fun n =>
    (sldCheck (BitVec.ofNat 3 n.val) (BitVec.ofNat 128 (imgNat img (0x80 + 16 * n.val) 16))).map fun c => (n, c)

/-- The registers when SLD refuses descriptor n: those before it are loaded, the target and those after it are as they were,
and the runtime still runs. -/
def Regs.loadUpTo (r : Regs) (img : List Byte) (n : Nat) : Regs :=
  let y := r.load img
  { y with st := r.st, pc := r.pc, s := Vector.ofFn fun i => if i.val < n then y.s[i] else r.s[i] }

/-- The fault that ends the load of a context's image, if any: a poisoned slot (R253) or a refused descriptor (R133). -/
def State.loadFault (s : State) (c : Half) (img : List Byte) : Option (Nat × Exn) :=
  let at_ (vec : Nat) (cause : Byte) (n : Nat) : Option (Nat × Exn) :=
    some (n, { vec := vec, cause := cause, seg := BitVec.ofNat 3 n, eaddr := Config.freeOfs s.freeCtr })
  if s.poisoned (s.ctxSlot c) 256 then at_ 3 0x20 0
  else match imgRefused img with
    | some (n, cause) => at_ 4 cause n.val
    | none => none

/-- Binds an item to an idle sequencer (R268), in the cc of R403, whose tokens count for the incoming context. A BROKEN
context's item ends FAILED(BROKEN) (R265). A fault of the runtime's loads is given back for the caller to enter. -/
def State.switchIn (s : State) (q : SeqId) (it : Item) (cc : Nat) : Option (State × Option Exn) :=
  let c := it.ctx
  let s := s.ctxTouch c
  if s.ctxState c == ctxBROKEN then
    some (s.finishItem it stFAILED 0x04 0 it.ran, none)
  else
    match s.makeResident c with
    | none => none
    | some s =>
      let s := s.releaseLines (galOf q) fun l => l.seq = q && l.ctx != c
      let (s, img) := (s.startItem c it).scratchRead (s.ctxSlot c) 256
      let bad := s.loadFault c img
      let s := (s.setCtxField c 3 1 (0x80 + (idxOf q).val)).setCtxState c ctxBOUND
      let s := s.modSeq q fun x => Seq.flush { x with
        regs := { (match bad with | none => x.regs.load img | some (n, _) => x.regs.loadUpTo img n) with ctxid := c }
        running := some { it with started := true, ticks := 0, ran := BitVec.ofNat 8 q.val }
        bud := { x.bud with bound := 0 }, wait := .none, quantumUp := false }
      some ((s.ctxPacket q 0 c).routine q { more := cc }, bad.map fun e => e.2)

/-- Saves and unbinds the bound context, its item still in progress: PARKED, or OPEN without an item (R268). The item is
returned for the caller to place. -/
def State.switchOut (s : State) (q : SeqId) (op : Byte) : State × Option Item :=
  let s := s.landAll q
  let s := s.breakLock q
  match (s.seq q).running with
  | none => (s, none)
  | some it =>
    let c := it.ctx
    let s := s.saveRegs q c
    let s := s.tokensOut q
    let s := (s.setCtxField c 3 1 0).setCtxState c (if s.ctxState c == ctxBROKEN then ctxBROKEN else ctxPARKED)
    let s := s.noteUnbound (galOf q) c
    let s := s.ctxPacket q op c
    (s.modSeq q fun x => { x with running := none, regs := { x.regs with ctxid := 0xFFFF, st := putBit x.regs.st stPRIV true },
                                  wait := .none, quantumUp := false }, some it)

/-! ### Exception entry (R237) -/

/-- DBL clears at the first boundary with LSP back at its value before the DOUBLE entry (R247). -/
def Seq.settle (x : Seq) : Seq :=
  if x.exc.dbl && x.exc.lspBefore.toNat ≤ x.regs.lsp.toNat then { x with exc := { x.exc with dbl := false } } else x

/-- The end of an instruction while instructions are stepped: the watchdog reloads, and the last step asks for the halt
(R367, R369). -/
def Seq.stepped (x : Seq) : Seq :=
  if x.dbg.steps = 0 ∨ x.dbg.stepUnit then x else
  { x with
    exc := { x.exc with wdcount := x.exc.wdperiod }
    dbg := { x.dbg with steps := x.dbg.steps - 1, why := if x.dbg.steps = 1 then 6 else x.dbg.why }
    dhalt := x.dhalt || x.dbg.steps = 1 }

/-- The boundary after an instruction. -/
def Seq.boundary (x : Seq) : Seq := x.settle.stepped

/-- The entry of a fault raised by the instruction at pc. -/
def Exn.entry (e : Exn) (pc : Half) : Entry :=
  { vec := e.vec, ecause := e.seg.setWidth 16 <<< 8 ||| e.cause.setWidth 16, eaddr := e.eaddr, framePc := pc, ipc := pc,
    kind := .fault }

/-- Checks of the frame region, one half at a time, on the runtime S7 (R237 step 2). -/
def frameCheck (r : Regs) (size : Nat) : Except Exn Nat :=
  let sp := r.spr.toNat
  let one (h : Nat) : Except Exn Nat :=
    checkDesc r.s7r true 7 ((sp + 0x10000 - size + h) % 0x10000) 2 .write (sp + h < size)
  match (List.range (size / 2)).map (fun k => one (2 * k)) |>.find? (fun e => match e with | .error _ => true | .ok _ => false) with
  | some e => e
  | none => .ok (Desc.first r.s7r + sp - size)

/-- The vector entry's address (R234). -/
def vecCheck (r : Regs) (v : Nat) : Except Exn Nat :=
  let off := r.vbr.toNat + 2 * v
  let bad (c : Byte) : Except Exn Nat := .error { vec := 4, cause := c, seg := 0, eaddr := BitVec.ofNat 16 off }
  if Desc.typ r.s0r ≠ 1 ∨ !Desc.canX r.s0r then bad 0x31
  else if Desc.limit r.s0r < off + 1 then bad 0x30
  else .ok (Desc.first r.s0r + off)

/-- How an entry came out. -/
inductive Entered where
  | held (s : State)
  | third (s : State)
  | double (s : State)
  | plain (s : State)

def Entered.state : Entered → State
  | .held s | .third s | .double s | .plain s => s

/-- EXC trace packet (R382). -/
def State.excPacket (s : State) (q : SeqId) (vec : Nat) (ecause framePc eaddr : Half) : State :=
  s.seqPacket q 2 0x03 ([BitVec.ofNat 8 vec, 0] ++ leBytes 2 ecause.toNat ++ leBytes 2 framePc.toNat ++ leBytes 2 eaddr.toNat
    ++ leBytes 2 (s.regs q).ctxid.toNat)

/-- The live ST after an entry (R237 step 6). -/
def entrySt (st : Half) (e : Entry) : Half :=
  let st := putBit (putBit (putBit st stPRIV true) stRES false) stSHORT false
  let st := match e.kind with
    | .fault => putBits st 6 (7#3)
    | .int l => putBits st 6 l
    | _ => st
  if e.vec = 6 then putBit st stFPP false else st

/-- The frame's four halves (R236). -/
def frameBytes (saved pc ecause eaddr : Half) (short : Bool) : List Byte :=
  leBytes 2 saved.toNat ++ leBytes 2 pc.toNat ++ (if short then [] else leBytes 2 ecause.toNat ++ leBytes 2 eaddr.toNat)

/-- Writes a list of bytes on the ledge. -/
def Seq.ledgeWrite (x : Seq) (off : Nat) : List Byte → Seq
  | [] => x
  | b :: bs => Seq.ledgeWrite { x with ledge := x.ledge.set (off % 64) b (Nat.mod_lt _ (by omega)) } (off + 1) bs

def Seq.ledgeAt (x : Seq) (off : Nat) : Byte := x.ledge[off % 64]'(Nat.mod_lt _ (by omega))

/-- A DOUBLE entry (R246), or third fault 0x3 (R247). -/
def State.doubleEntry (s : State) (q : SeqId) (e : Entry) (saved : Half) (ecause eaddr : Half) : Entered :=
  let r := s.regs q
  let third := Entered.third (s.thirdFault q 3 e.framePc)
  if r.lsp.toNat < 8 then third else
  match vecCheck r 7 with
  | .error _ => third
  | .ok va =>
    match s.memRead q va 2 with
    | .bus s _ => .third (s.thirdFault q 3 e.framePc)
    | .wait s => .held s
    | .retry => .held s
    | .ok s v =>
      let orig : Half := match e.kind with | .gate | .trap => 0 | _ => e.ecause
      let lsp := r.lsp - 8
      let s := s.modSeq q fun x => Seq.flush { (x.ledgeWrite lsp.toNat (frameBytes saved e.framePc ecause eaddr false)) with
        regs := { x.regs with
          ecause := ecause, eaddr := eaddr, lsp := lsp
          st := putBits (putBit (putBit x.regs.st stPRIV true) stRES false) 6 (7#3)
          pc := BitVec.ofNat 16 (ofLeBytes v) }
        exc := { x.exc with dbl := true, origv := BitVec.ofNat 6 e.vec, origcause := orig.setWidth 11, lspBefore := r.lsp } }
      let s := s.record 3 (recSrc 0 (galOf q).val q.val) .important
        ([BitVec.ofNat 8 e.vec, 0] ++ leBytes 2 orig.toNat ++ leBytes 2 ecause.toNat ++ leBytes 2 eaddr.toNat
          ++ leBytes 2 e.framePc.toNat)
      .double (s.excPacket q 7 ecause e.framePc eaddr)

/-- A frame or vector check failed (R237 step 4, R245). -/
def State.entryFailed (s : State) (q : SeqId) (e : Entry) (saved : Half) (seg : BitVec 3) (cause : Byte) (eaddr : Half) : Entered :=
  if (s.seq q).exc.dbl then .third (s.thirdFault q 2 e.framePc)
  else s.doubleEntry q e saved (seg.setWidth 16 <<< 8 ||| cause.setWidth 16) eaddr

/-- An interrupt's entry clears its pending bit (R241). -/
def Exc.acknowledge (c : Exc) (e : Entry) : Exc :=
  match e.kind with
  | .int _ => { c with irqpend := putBit c.irqpend (e.vec - 16) false }
  | _ => c

/-- After the landings: the entry, with the redirection of R232 already made. -/
def State.enterAt (s : State) (q : SeqId) (e : Entry) : Entered :=
  let x := s.seq q
  let r := x.regs
  let saved := if e.vec = 6 then putBit r.st stFPP false else r.st
  let saved := putBit saved stSHORT (e.kind == .trap)
  if e.kind == .fault && x.exc.dbl then .third (s.thirdFault q 1 e.framePc)
  else if e.kind == .fault && r.ml = 7 then s.doubleEntry q e saved e.ecause e.eaddr
  else
    let short := e.kind == .trap
    let size := if short then 4 else 8
    match frameCheck r size with
    | .error f => s.entryFailed q e saved 7 f.cause f.eaddr
    | .ok fa =>
      match vecCheck r e.vec with
      | .error f => s.entryFailed q e saved 0 f.cause f.eaddr
      | .ok va =>
        match s.memRead q va 2 with
        | .bus s c => s.entryFailed q e saved 0 c (BitVec.ofNat 16 (r.vbr.toNat + 2 * e.vec))
        | .wait s => .held s
        | .retry => .held s
        | .ok s v0 =>
          match s.memWrite q fa (frameBytes saved e.framePc e.ecause e.eaddr short) with
          | .bus s c => s.entryFailed q e saved 7 c (r.spr - BitVec.ofNat 16 size)
          | .wait s => .held s
          | .retry => .held s
          | .ok s _ =>
            let v := match s.memRead q va 2 with | .ok _ v => v | _ => v0
            let s := s.modSeq q fun x => { x with exc := x.exc.acknowledge e }
            let s := s.modRegs q fun y => { y with
              spr := y.spr - BitVec.ofNat 16 size
              ecause := if short then y.ecause else e.ecause
              eaddr := if short then y.eaddr else e.eaddr
              st := entrySt y.st e
              pc := BitVec.ofNat 16 (ofLeBytes v) }
            let s := s.modSeq q Seq.flush
            .plain (s.excPacket q e.vec (s.regs q).ecause e.framePc (s.regs q).eaddr)

/-- A fault of the runtime's own loads is entered in runtime mode (log 84): the manual gives neither the address of the runtime's
load nor the offset in its segment. -/
def State.loadFaultEntry (s : State) (q : SeqId) : Option Exn → State
  | none => s
  | some e =>
    let s := s.modRegs q fun r => { r with st := putBit r.st stPRIV true }
    (s.enterAt q (e.entry (Config.freeOfs (s.freeCtr + 1)))).state.fresh.fresh

/-- Switches to the prefetched item; the outgoing one takes the slot it leaves (log 11). -/
def State.switchTo (s : State) (q : SeqId) : State :=
  match (s.seq q).prefetch with
  | none => s
  | some inc =>
    let s0 := s
    let (s, out) := s.switchOut q 1
    match s.switchIn q inc (if out.isSome then 96 else 72) with
    | none => s0
    | some (s, e) => (s.modSeq q fun x => { x with prefetch := out }).loadFaultEntry q e

/-- The idle loop binds the prefetched item (R250, R268, R403): a sequencer that issues, with no context bound and nothing
to stop it first. -/
def State.idleBind (s : State) (q : SeqId) : State :=
  let x := s.seq q
  if x.running.isSome || x.run != .active || x.wait != .none || x.dbg.halted || x.dhalt || x.unbind.isSome || x.bud.stuck then s
  else match x.prefetch with
    | none => s
    | some it =>
      match s.switchIn q it 72 with
      | none => s
      | some (s, e) => (s.modSeq q fun x => { x with prefetch := none }).loadFaultEntry q e

/-- The redirection of R232: a landing that set FPP turns the entry into an FPTRAP entry. A displaced fault, GATE, TRAP
or BRK runs again, so its frame PC is its own PC (log 12). -/
def Seq.redirect (x : Seq) (e : Entry) : Entry :=
  if e.vec ≠ 6 ∧ bit x.regs.st stFPP ∧ x.regs.ml < 7 then
    { vec := 6, ecause := 0x50, eaddr := x.exc.trapAddr, kind := .fault, ipc := e.ipc,
      framePc := match e.kind with | .int _ => e.framePc | _ => e.ipc }
  else e

/-- Result word of an item that the runtime ends at an entry (R400). -/
def endResult (e : Entry) (doubled : Bool) (origcause : BitVec 11) : Word :=
  if doubled then 0x80070000#32 + origcause.setWidth 32
  else 0x80000000#32 + (BitVec.ofNat 32 e.vec <<< 16) + (if e.kind == .fault then e.ecause.setWidth 32 else 0)

/-- Which end an entry from program mode brings to the running item (R400): DONE or FAILED(PROG), and the result. -/
def endOf (r : Regs) (e : Entry) (doubled : Bool) (origcause : BitVec 11) : Byte × Byte × Word :=
  if e.vec = 47 && !doubled then
    if r.B 0 = 0 then (stDONE, 0x00, r.W 1)
    else if r.B 0 = 1 then (stFAILED, 0x01, r.W 1)
    else (stFAILED, 0x01, 0xFFFFFFFF)
  else (stFAILED, 0x01, endResult e doubled origcause)

/-- The runtime ends the item at an entry from program mode (R400): the context is stored as the program left it, with
the frame's PC and the ST from before the entry, in the 8 cc of R403; the frame is discarded; a DOUBLE handler writes LSP := 0x40. -/
def State.endAtEntry (s : State) (q : SeqId) (before : Regs) (e : Entry) (doubled : Bool) : State :=
  let r := s.regs q
  let (status, cause, res) := endOf before e doubled (s.seq q).exc.origcause
  let size : Nat := if e.kind == .trap then 4 else 8
  let s := (s.routine q { more := 8 }).modRegs q fun y => { y with st := before.st, pc := e.framePc }
  let s := s.completeItem q status cause res
  s.modSeq q fun x => { x with
    regs := { x.regs with
      st := r.st, pc := r.pc
      spr := if doubled then r.spr else r.spr + BitVec.ofNat 16 size
      lsp := if doubled then 0x40 else r.lsp }
    exc := if doubled then { x.exc with dbl := false } else x.exc }

/-- An entry (R237): landings, redirection, the words of R238, of class EXC (R399), checks, frame, and the runtime's end of the item where R400 says so. An
entry whose completion record finds no room in the FIFO is held (R282). `own` marks an entry that an instruction makes: it
ends that instruction's step. -/
def State.enter (s : State) (q : SeqId) (e : Entry) (own : Bool := true) : State :=
  let arrive (x : Seq) : Seq := if own then x.boundary else x.settle
  let s0 := s
  let s := s.landAll q
  let e := (s.seq q).redirect e
  let s := s.cycles q (List.replicate (if e.kind == .trap then 8 else 9) 0xB)
  let x := s.seq q
  let ends := !x.regs.priv && x.running.isSome && (match e.kind with | .int _ => false | _ => true)
  if ends && 64 ≤ s.work.fifo.length then s0 else
  match s.enterAt q e with
  | .held s => s
  | .third s => s
  | .double s => if ends then ((s.endAtEntry q x.regs e true).modSeq q arrive).idleBind q else s.modSeq q arrive
  | .plain s => if ends then ((s.endAtEntry q x.regs e false).modSeq q arrive).idleBind q else s.modSeq q arrive

end Sys2Proof.Machine
end

