-- ==== Sys2Proof/Machine/Run.lean ====
section
/-!
DEFINITION. How one program instruction runs: when a sequencer dispatches (R90, R244), the fetch (R140), breakpoints
(R371), the pending items of R213, and retirement. The word is the command's, as it stood in the queue (R134).
-/

namespace Sys2Proof.Machine

open Sys2Proof

/-! ### The causes at a boundary (R244) -/

/-- FPTD: an imprecise trap ready for delivery (R231). -/
def Seq.fptd (x : Seq) : Bool := bit x.regs.st stFPP && decide (x.regs.ml < 7)
/-- A debug halt request that is not deferred by a lock (R368). -/
def Seq.haltNow (x : Seq) : Bool := x.dhalt && (!x.dbg.defer || x.lock.isNone || 64 ≤ x.dbg.defcnt.toNat)
/-- An interrupt above ST.ML is pending. -/
def Seq.irqNow (x : Seq) : Bool := (x.exc.best x.regs.ml).isSome
/-- Stepping instructions: BUDX, IRQ and TICKS are not served (R367). -/
def Seq.stepping (x : Seq) : Bool := x.dbg.steps != 0

/-- Some cause of BOUND is served before the next instruction (R244, R367). -/
def Seq.bound (x : Seq) : Bool :=
  x.fptd || x.unbind.isSome || x.haltNow || (!x.stepping && (x.bud.budx || x.irqNow || x.ticks))

/-- The sequencer issues: it is out of reset, not parked, stopped, stalled or halted. -/
def Seq.issues (x : Seq) : Bool := x.run == .active && !x.dbg.halted && !x.bud.stuck

/-- The sequencer exists, its gallery's logic is on, and the power-loss sequence has not stopped it (R355, R356). -/
def State.alive (s : State) (q : SeqId) : Bool := s.logicOn (galOf q) && !s.pd.active

/-- At an instruction boundary with nothing to serve before the next instruction. -/
def State.ready (s : State) (q : SeqId) : Bool :=
  s.alive q && (s.seq q).issues && (s.seq q).wait == .none && !(s.seq q).bound

/-! ### Fetch and breakpoints -/

/-- The enabled breakpoint unit that matches an instruction's engine address (R371). -/
def State.bpMatch (s : State) (q : SeqId) (ea : Nat) : Option (Fin 8) :=
  (List.finRange 8).find? fun i =>
    let ah := s.mp.bpAddrH[i]
    let ctl := s.mp.bpCtl[i]
    bit ah 31 && (ah.toNat % 2 ^ 20) * 2 ^ 32 + (s.mp.bpAddrL[i].toNat / 4) * 4 == ea
      && bit ctl (16 + (galOf q).val) && (ctl.setWidth 16 == 0xFFFF#16 || ctl.setWidth 16 == (s.regs q).ctxid)

/-- What the fetch at PC comes to. -/
inductive Fetched where
  | ok (s : State) (ea : Nat)
  | exn (s : State) (e : Exn)
  | wait (s : State)
  deriving Repr

def State.fetchAt (s : State) (q : SeqId) : Fetched :=
  let pc := (s.regs q).pc
  match (s.regs q).check 0 pc.toNat 4 .exec with
  | .error e => .exn s e
  | .ok a =>
    match s.memRead q a 4 with
    | .ok s _ => .ok s a
    | .bus s c => .exn s { vec := 3, cause := c, seg := 0, eaddr := pc }
    | .wait s => .wait s
    | .retry => .wait s

/-! ### Retirement -/

/-- The head leaves the instruction queue, and the next word of the queue becomes its head (R79, R134). -/
def Micro.pop (m : Micro) : Micro :=
  match m.ahead with
  | [] => { m with head := .empty }
  | w :: ws => { m with head := .word w, ahead := ws }

/-- The instruction retires: the new PC, the count of a deferred halt (R368), the boundary. -/
def Seq.retire (x : Seq) (pc : Half) : Seq :=
  let x := { x with
    regs := { x.regs with pc := pc }
    mic := x.mic.pop
    ra := { x.ra with shadow := none }
    dbg := { x.dbg with
      bpSkip := false
      defcnt := if x.dhalt && x.dbg.defer && x.lock.isSome && x.dbg.defcnt.toNat < 64 then x.dbg.defcnt + 1 else x.dbg.defcnt } }
  x.boundary

/-- A pool operation lands; a divider instruction retires with it (R212). -/
def Seq.poolLanded (x : Seq) (p : PoolOp) : Seq :=
  let y := x.landPool p
  if x.wait = .pool then y.retire (y.regs.pc + 4) else y

/-- Everything in flight lands, and a divider instruction retires with it (R166, R212, R214). -/
def Seq.landOut (x : Seq) : Seq :=
  let y := { x.prods.foldl Seq.landProduct x with prods := [] }
  match x.pool with
  | none => y
  | some p => y.poolLanded p

/-- A FLOW packet at a taken transfer (R382). -/
def State.flow (s : State) (q : SeqId) (src dst : Half) : State :=
  s.seqPacket q 1 0x02 (leBytes 2 src.toNat ++ leBytes 2 dst.toNat ++ leBytes 2 (s.regs q).ctxid.toNat ++ [0, 0, 0, 0])

/-- Applies the outcome of an instruction's body that began at pc in state s0. -/
def State.finish (s0 : State) (q : SeqId) (pc : Half) : Res → State
  | .done s => s.modSeq q fun x => x.retire (pc + 4)
  | .jump s t => (s.flow q pc t).modSeq q fun x => x.flush.retire t
  | .hold s | .wait s => s
  | .retry => s0.modSeq q fun x => { x with wait := .retry, cond := { x.cond with retry := true } }
  | .exn s e => (s.enter q (e.entry pc)).modSeq q fun x => { x with dbg := { x.dbg with bpSkip := false } }
  | .entry s e => (s.enter q e).modSeq q fun x => { x with dbg := { x.dbg with bpSkip := false } }

/-- The state after a breakpoint unit matched: DHALT is raised with WHY 2 (R371). An instruction that a held lock lets run has
not been stopped; another one runs when the sequencer goes on. -/
def State.bpHalt (s : State) (q : SeqId) (u : Fin 8) : State :=
  s.modSeq q fun x => let y := x.requestHalt 2; { y with dbg := { y.dbg with bpu := BitVec.ofNat 3 u.val, bpSkip := x.lock.isNone } }

/-- Dispatch after a good fetch: breakpoint, pending items, body. -/
def State.dispatch (s : State) (q : SeqId) (ea : Nat) (t : Touch) (body : State → Res) : State :=
  let pc := (s.regs q).pc
  match if (s.seq q).dbg.bpSkip then none else s.bpMatch q ea with
  | some u =>
    if (s.seq q).lock.isNone then s.bpHalt q u
    else if t.meets (s.seq q).pool then s
    else let s := s.bpHalt q u; s.finish q pc (body s)
  | none => if t.meets (s.seq q).pool then s else s.finish q pc (body s)

/-- One word of the instruction queue: nothing happens unless q is ready (log 13); then the fetch, and the body. -/
def runWord (q : SeqId) (t : Touch) (body : State → Res) (s : State) : State :=
  if !s.ready q then s else
  match s.fetchAt q with
  | .exn s e => (s.routine q wordsLoose).enter q (e.entry (s.regs q).pc)
  | .wait s => s
  | .ok s ea => s.dispatch q ea t body

/-- A figure of n cc whose map read is of class CTRL (R92) and whose routine has a word of a class (R399). -/
def ccOf (n : Nat) (cls : BitVec 4) : Words := { first := [1, cls], more := n - 2 }

/-- A figure of n cc of which R399 fixes only the map read. -/
def ccAny (n : Nat) : Words := { first := [1], more := n - 1 }

/-- The words of a program instruction (R145): its cc figure without the refill and its waits, which are holds, with the class
of the unit it drives (R399): MEM for scratch, MPRT for FETCH and PUT, POOL, MUL, EVT, DGST, and ALU for wide arithmetic,
shifts and CRC steps. GATE, TRAP and BRK are counted up to their entry (R238), a long instruction up to its first step
(R181). -/
def wordsOf : Instr → Words
  | .ldb .. | .ldh .. | .lda .. => ccOf 5 3
  | .ldw .. => ccOf 6 3
  | .stb .. | .sth .. | .sta .. => ccOf 4 3
  | .stw .. => ccOf 5 3
  | .movl _ f => ccAny (if f.minor = 1 then 3 else if f.minor = 7 ∨ f.minor = 8 then 4 else 2)
  | .movx .. => ccAny 3
  | .sld .. | .sst .. => ccOf 8 3
  | .lea .. => ccOf 2 2
  | .push _ minor _ => ccOf (if minor = 2 then 5 else 4) 3
  | .pop _ minor _ => ccOf (if minor = 2 then 6 else 5) 3
  | .addW .. | .adcW .. | .subW .. | .sbcW .. | .cmpW .. | .andW .. | .orW .. | .xorW .. | .andnW .. | .notW .. | .negW ..
  | .shlW .. | .shrW .. | .asrW .. | .rolW .. | .rorW .. | .brevW .. | .parW .. | .addiW .. | .cmpiW .. | .crcw .. => ccOf 3 2
  | .shlH .. | .shrH .. | .asrH .. | .rolH .. | .rorH .. | .addH .. | .adcH .. | .subH .. | .sbcH .. | .cmpH .. | .andH ..
  | .orH .. | .xorH .. | .notH .. | .negH .. | .brevH .. | .parH .. | .addiH .. | .cmpiH .. | .crcbW .. | .crch .. => ccOf 2 2
  | .swapbH .. | .sextH .. | .zextH .. | .crci .. => ccAny 2
  | .sextW .. | .zextW .. => ccAny 3
  | .clzW .. | .crcf .. => ccAny 4
  | .jmp .. | .jcc .. | .loop .. | .jmpa .. => ccAny 2
  | .call .. | .calla .. => ccOf 4 3
  | .ret .. => ccOf 5 3
  | .rets .. => ccOf 8 3
  | .gate .. | .trap .. | .brk .. => ccAny 2
  | .mul .. | .mula .. => ccOf 2 4
  | .div .. | .rem .. | .fadd .. | .fsub .. | .fmul .. | .fdiv .. | .fsqrt .. | .fma .. | .fcmp .. | .fcvt .. | .fminmax ..
  | .fclass .. => ccOf 2 5
  | .fbar .. => ccAny 2
  | .fetch .. | .put .. => ccOf 4 8
  | .waitt .. => ccAny 3
  | .copy .. | .crcs .. | .matchS .. | .hashs .. | .fills .. | .cmps .. | .dgstP .. => ccAny 6
  | .scan .. | .matchF .. | .filt .. => ccAny 8
  | .dgstOpen .. => ccAny 4
  | .dgstFinal .. | .dgstCheck .. | .dgstSave .. | .dgstLoad .. | .dgstAbort .. => { first := [1, 9], loose := true }
  | .hold .. => ccOf 6 3
  | .free .. => ccOf 5 3
  | .yield .. => ccOf 2 0
  | .wdog .. | .setml .. | .halt .. => ccAny 2
  | .stim .. | .evtTake .. | .evtCnt .. | .waite .. | .waiteT .. => ccOf 3 0xA
  | .evtPub .. => ccOf 2 0xA
  | _ => { first := [1], loose := true }

/-- The words of a format-0 instruction have issued; one whose dispatch holds has issued none (R65). One that faults or is answered
RETRY has issued its map read, and how many more is open; an attempt answered RETRY has them debited, and the repeat issues its
own (R352). -/
def Res.spent (q : SeqId) (w : Words) (s0 : State) : Res → Res
  | .done s => .done (s.routine q w)
  | .jump s pc => .jump (s.routine q w) pc
  | .hold s => .hold (s.routine q {})
  | .wait s => .wait (s.routine q w)
  | .retry => .wait ((s0.routine q { first := [1], loose := true }).modSeq q fun x =>
      { x with wait := .retry, cond := { x.cond with retry := true } })
  | .exn s e => .exn (s.routine q { first := [1], loose := true }) e
  | .entry s e => .entry (s.routine q w) e

/-- One format-0 instruction. -/
def runInstr (i : Instr) (q : SeqId) (t : Touch) (body : State → Res) (s : State) : State :=
  runWord q t (fun s => (body s).spent q (wordsOf i) s) s

end Sys2Proof.Machine
end

