-- ==== Sys2Proof/Machine/Integer.lean ====
section
/-!
DEFINITION. The pair word (R146) and the wide integer, bit and CRC operations (R158, R159, R160), majors 0x10 to 0x1B.
-/

namespace Sys2Proof.Machine

open Sys2Proof

/-! ### What a wide operation does to the registers -/

/-- A result into W[RD] with its flags. -/
def Regs.putW (r : Regs) (rd : BitVec 5) (x : Alu 32) : Regs := (r.setW rd x.val).flags x.fl
/-- A result into H[RD] with its flags. -/
def Regs.putH (r : Regs) (rd : BitVec 5) (x : Alu 16) : Regs := (r.setH rd x.val).flags x.fl
/-- A result into B[RD] with its flags. -/
def Regs.putB (r : Regs) (rd : BitVec 5) (x : Alu 8) : Regs := (r.setB rd x.val).flags x.fl

/-- The count of a W shift: IMM8[4:0] or B[RS][4:0] (R158). -/
def countW (n : ShiftCount) (r : Regs) : Nat :=
  match n with
  | .imm k => k.toNat
  | .reg rs => (r.B rs).toNat % 32

/-- The count of an H shift: four bits are used (R158). -/
def countH (n : ShiftCount) (r : Regs) : Nat := countW n r % 16

def shiftW (k : Shift) (n : ShiftCount) (rd : BitVec 5) (r : Regs) : Regs := r.putW rd (aluShift k (r.W rd) (countW n r))
def shiftH (k : Shift) (n : ShiftCount) (rd : BitVec 5) (r : Regs) : Regs := r.putH rd (aluShift k (r.H rd) (countH n r))

/-- The registers after a wide operation (R158). -/
def wideRun (op : WideOp) (rd rs : BitVec 5) (r : Regs) : Regs :=
  match op with
  | .addW => r.putW rd (aluAdd (r.W rd) (r.W rs) false)
  | .adcW => r.putW rd ((aluAdd (r.W rd) (r.W rs) r.c).chain r.z)
  | .subW => r.putW rd (aluSub (r.W rd) (r.W rs) false)
  | .sbcW => r.putW rd ((aluSub (r.W rd) (r.W rs) r.c).chain r.z)
  | .cmpW => r.flags (aluSub (r.W rd) (r.W rs) false).fl
  | .andW => r.putW rd (aluLogic (r.W rd &&& r.W rs))
  | .orW => r.putW rd (aluLogic (r.W rd ||| r.W rs))
  | .xorW => r.putW rd (aluLogic (r.W rd ^^^ r.W rs))
  | .andnW => r.putW rd (aluLogic (r.W rd &&& ~~~(r.W rs)))
  | .notW => r.putW rd (aluLogic (~~~(r.W rs)))
  | .negW => r.putW rd (aluSub 0 (r.W rs) false)
  | .addH => r.putH rd (aluAdd (r.H rd) (r.H rs) false)
  | .adcH => r.putH rd ((aluAdd (r.H rd) (r.H rs) r.c).chain r.z)
  | .subH => r.putH rd (aluSub (r.H rd) (r.H rs) false)
  | .sbcH => r.putH rd ((aluSub (r.H rd) (r.H rs) r.c).chain r.z)
  | .cmpH => r.flags (aluSub (r.H rd) (r.H rs) false).fl
  | .andH => r.putH rd (aluLogic (r.H rd &&& r.H rs))
  | .orH => r.putH rd (aluLogic (r.H rd ||| r.H rs))
  | .xorH => r.putH rd (aluLogic (r.H rd ^^^ r.H rs))
  | .notH => r.putH rd (aluLogic (~~~(r.H rs)))
  | .negH => r.putH rd (aluSub 0 (r.H rs) false)
  | .shlW n => shiftW .shl n rd r
  | .shrW n => shiftW .shr n rd r
  | .asrW n => shiftW .asr n rd r
  | .rolW n => shiftW .rol n rd r
  | .rorW n => shiftW .ror n rd r
  | .shlH n => shiftH .shl n rd r
  | .shrH n => shiftH .shr n rd r
  | .asrH n => shiftH .asr n rd r
  | .rolH n => shiftH .rol n rd r
  | .rorH n => shiftH .ror n rd r
  | .brevW => r.putW rd (aluLogic (bitRev (r.W rs)))
  | .brevH => r.putH rd (aluLogic (bitRev (r.H rs)))
  | .parW => r.putB rd (aluLogic (ofB 8 (parity (r.W rs)))).withP
  | .parH => r.putB rd (aluLogic (ofB 8 (parity (r.H rs)))).withP
  | .swapbH => r.putH rd (aluLogic ((r.H rs).rotateLeft 8))
  | .sextH => r.putH rd (aluLogic ((r.B rs).signExtend 16))
  | .zextH => r.putH rd (aluLogic ((r.B rs).setWidth 16))
  | .sextW => r.putW rd (aluLogic ((r.H rs).signExtend 32))
  | .zextW => r.putW rd (aluLogic ((r.H rs).setWidth 32))
  | .clzW => (r.setB rd (BitVec.ofNat 8 (clz32 (r.W rs)))).flags { z := some (r.W rs == 0) }
  | .crci => r.putW rd (aluCrc r.crc (crcInit r.crc))
  | .crcbW => r.putW rd (aluCrc r.crc (crcStep r.crc (r.W rd) (r.B rs)))
  | .crcH => r.putW rd (aluCrc r.crc (crcBytes r.crc (r.W rd) [(r.H rs).extractLsb' 0 8, (r.H rs).extractLsb' 8 8]))
  | .crcW => r.putW rd (aluCrc r.crc (crcBytes r.crc (r.W rd)
      [(r.W rs).extractLsb' 0 8, (r.W rs).extractLsb' 8 8, (r.W rs).extractLsb' 16 8, (r.W rs).extractLsb' 24 8]))
  | .crcF => r.putW rd (aluCrc r.crc (crcFinish r.crc (r.W rs)))
  | .addiH i => r.putH rd (aluAdd (r.H rd) (i.signExtend 16) false)
  | .addiW i => r.putW rd (aluAdd (r.W rd) (i.signExtend 32) false)
  | .cmpiH i => r.flags (aluSub (r.H rd) (i.signExtend 16) false).fl
  | .cmpiW i => r.flags (aluSub (r.W rd) (i.signExtend 32) false).fl

/-! ### What it reads and writes (R213) -/

/-- Register bytes a count names. -/
def countTouch : ShiftCount → Touch
  | .imm _ => tNone
  | .reg rs => tB rs

def wideTouch (op : WideOp) (rd rs : BitVec 5) : Touch :=
  let ww := (tW rd).or (tW rs)
  let hh := (tH rd).or (tH rs)
  let zcnv := tSt 0x0F
  let zn := tSt 0x05
  let zcn := tSt 0x07
  match op with
  | .addW | .adcW | .subW | .sbcW | .cmpW | .negW => ww.or zcnv
  | .andW | .orW | .xorW | .andnW | .notW | .brevW => ww.or zn
  | .addH | .adcH | .subH | .sbcH | .cmpH | .negH => hh.or zcnv
  | .andH | .orH | .xorH | .notH | .brevH | .swapbH => hh.or zn
  | .shlW n | .shrW n | .asrW n | .rolW n | .rorW n => ((tW rd).or (countTouch n)).or zcn
  | .shlH n | .shrH n | .asrH n | .rolH n | .rorH n => ((tH rd).or (countTouch n)).or zcn
  | .parW => ((tB rd).or (tW rs)).or (tSt 0x15)
  | .parH => ((tB rd).or (tH rs)).or (tSt 0x15)
  | .sextH | .zextH => ((tH rd).or (tB rs)).or zn
  | .sextW | .zextW => ((tW rd).or (tH rs)).or zn
  | .clzW => ((tB rd).or (tW rs)).or (tSt 0x01)
  | .crci => (tW rd).or (tSt 0x01)
  | .crcbW => ((tW rd).or (tB rs)).or (tSt 0x01)
  | .crcH => ((tW rd).or (tH rs)).or (tSt 0x01)
  | .crcW | .crcF => ww.or (tSt 0x01)
  | .addiH _ | .cmpiH _ => (tH rd).or zcnv
  | .addiW _ | .cmpiW _ => (tW rd).or zcnv

/-- The command of a wide operation. -/
def wideInstr (q : SeqId) (op : WideOp) (rd rs : BitVec 5) : Instr :=
  match op with
  | .addW => .addW q rd rs | .adcW => .adcW q rd rs | .subW => .subW q rd rs | .sbcW => .sbcW q rd rs
  | .cmpW => .cmpW q rd rs | .andW => .andW q rd rs | .orW => .orW q rd rs | .xorW => .xorW q rd rs
  | .andnW => .andnW q rd rs | .notW => .notW q rd rs | .negW => .negW q rd rs
  | .addH => .addH q rd rs | .adcH => .adcH q rd rs | .subH => .subH q rd rs | .sbcH => .sbcH q rd rs
  | .cmpH => .cmpH q rd rs | .andH => .andH q rd rs | .orH => .orH q rd rs | .xorH => .xorH q rd rs
  | .notH => .notH q rd rs | .negH => .negH q rd rs
  | .shlW n => .shlW q rd n | .shrW n => .shrW q rd n | .asrW n => .asrW q rd n | .rolW n => .rolW q rd n
  | .rorW n => .rorW q rd n
  | .shlH n => .shlH q rd n | .shrH n => .shrH q rd n | .asrH n => .asrH q rd n | .rolH n => .rolH q rd n
  | .rorH n => .rorH q rd n
  | .brevW => .brevW q rd rs | .brevH => .brevH q rd rs | .parW => .parW q rd rs | .parH => .parH q rd rs
  | .swapbH => .swapbH q rd rs | .sextH => .sextH q rd rs | .zextH => .zextH q rd rs | .sextW => .sextW q rd rs
  | .zextW => .zextW q rd rs | .clzW => .clzW q rd rs
  | .crci => .crci q rd | .crcbW => .crcbW q rd rs | .crcH => .crch q rd rs | .crcW => .crcw q rd rs
  | .crcF => .crcf q rd rs
  | .addiH i => .addiH q rd i | .addiW i => .addiW q rd i | .cmpiH i => .cmpiH q rd i | .cmpiW i => .cmpiW q rd i

/-- A wide operation as an instruction. -/
def wide (i : Instr) (q : SeqId) (op : WideOp) (rd rs : BitVec 5) (s : State) : Out State :=
  .next (runInstr i q (wideTouch op rd rs) (fun s => .done (s.modRegs q (wideRun op rd rs))) s)

/-! ### The pair (R146, R150) -/

/-- execute_pair (R146): ILLEGAL with the lowest cause, else both slots; one cc of class CTRL (R92). -/
def pairBody (q : SeqId) (w : Word) (s : State) : Res :=
  match pairCause w with
  | some c => .exn (s.routine q wordsLoose) (illegal (s.regs q).pc c)
  | none => .done ((s.modRegs q (runPair (shortOf (w.extractLsb' 16 15)) (shortOf (w.extractLsb' 1 15)))).cycle q 1)

/-- PAIR: a format-1 word; a word with bit 31 clear is no pair and leaves the state unchanged (log 13). -/
def execPair (q : SeqId) (w : Word) (s : State) : Out State :=
  .next (if bit w 31 then
    runWord q ((shortOf (w.extractLsb' 16 15)).touch.or (shortOf (w.extractLsb' 1 15)).touch) (pairBody q w) s
  else s)

/-! ### The instructions -/

/-- ADD.W (R158). -/
def execAddW (q : SeqId) (rd rs : BitVec 5) (s : State) : Out State := wide (.addW q rd rs) q .addW rd rs s

/-- ADC.W (R158). -/
def execAdcW (q : SeqId) (rd rs : BitVec 5) (s : State) : Out State := wide (.adcW q rd rs) q .adcW rd rs s

/-- SUB.W (R158). -/
def execSubW (q : SeqId) (rd rs : BitVec 5) (s : State) : Out State := wide (.subW q rd rs) q .subW rd rs s

/-- SBC.W (R158). -/
def execSbcW (q : SeqId) (rd rs : BitVec 5) (s : State) : Out State := wide (.sbcW q rd rs) q .sbcW rd rs s

/-- CMP.W (R158). -/
def execCmpW (q : SeqId) (rd rs : BitVec 5) (s : State) : Out State := wide (.cmpW q rd rs) q .cmpW rd rs s

/-- AND.W (R158). -/
def execAndW (q : SeqId) (rd rs : BitVec 5) (s : State) : Out State := wide (.andW q rd rs) q .andW rd rs s

/-- OR.W (R158). -/
def execOrW (q : SeqId) (rd rs : BitVec 5) (s : State) : Out State := wide (.orW q rd rs) q .orW rd rs s

/-- XOR.W (R158). -/
def execXorW (q : SeqId) (rd rs : BitVec 5) (s : State) : Out State := wide (.xorW q rd rs) q .xorW rd rs s

/-- ANDN.W (R158). -/
def execAndnW (q : SeqId) (rd rs : BitVec 5) (s : State) : Out State := wide (.andnW q rd rs) q .andnW rd rs s

/-- NOT.W (R158). -/
def execNotW (q : SeqId) (rd rs : BitVec 5) (s : State) : Out State := wide (.notW q rd rs) q .notW rd rs s

/-- NEG.W (R158). -/
def execNegW (q : SeqId) (rd rs : BitVec 5) (s : State) : Out State := wide (.negW q rd rs) q .negW rd rs s

/-- ADD.H (R158). -/
def execAddH (q : SeqId) (rd rs : BitVec 5) (s : State) : Out State := wide (.addH q rd rs) q .addH rd rs s

/-- ADC.H (R158). -/
def execAdcH (q : SeqId) (rd rs : BitVec 5) (s : State) : Out State := wide (.adcH q rd rs) q .adcH rd rs s

/-- SUB.H (R158). -/
def execSubH (q : SeqId) (rd rs : BitVec 5) (s : State) : Out State := wide (.subH q rd rs) q .subH rd rs s

/-- SBC.H (R158). -/
def execSbcH (q : SeqId) (rd rs : BitVec 5) (s : State) : Out State := wide (.sbcH q rd rs) q .sbcH rd rs s

/-- CMP.H (R158). -/
def execCmpH (q : SeqId) (rd rs : BitVec 5) (s : State) : Out State := wide (.cmpH q rd rs) q .cmpH rd rs s

/-- AND.H (R158). -/
def execAndH (q : SeqId) (rd rs : BitVec 5) (s : State) : Out State := wide (.andH q rd rs) q .andH rd rs s

/-- OR.H (R158). -/
def execOrH (q : SeqId) (rd rs : BitVec 5) (s : State) : Out State := wide (.orH q rd rs) q .orH rd rs s

/-- XOR.H (R158). -/
def execXorH (q : SeqId) (rd rs : BitVec 5) (s : State) : Out State := wide (.xorH q rd rs) q .xorH rd rs s

/-- NOT.H (R158). -/
def execNotH (q : SeqId) (rd rs : BitVec 5) (s : State) : Out State := wide (.notH q rd rs) q .notH rd rs s

/-- NEG.H (R158). -/
def execNegH (q : SeqId) (rd rs : BitVec 5) (s : State) : Out State := wide (.negH q rd rs) q .negH rd rs s

/-- BREV.W (R158). -/
def execBrevW (q : SeqId) (rd rs : BitVec 5) (s : State) : Out State := wide (.brevW q rd rs) q .brevW rd rs s

/-- BREV.H (R158). -/
def execBrevH (q : SeqId) (rd rs : BitVec 5) (s : State) : Out State := wide (.brevH q rd rs) q .brevH rd rs s

/-- PAR.W (R158). -/
def execParW (q : SeqId) (rd rs : BitVec 5) (s : State) : Out State := wide (.parW q rd rs) q .parW rd rs s

/-- PAR.H (R158). -/
def execParH (q : SeqId) (rd rs : BitVec 5) (s : State) : Out State := wide (.parH q rd rs) q .parH rd rs s

/-- SWAPB.H (R158). -/
def execSwapbH (q : SeqId) (rd rs : BitVec 5) (s : State) : Out State := wide (.swapbH q rd rs) q .swapbH rd rs s

/-- SEXT.H (R158). -/
def execSextH (q : SeqId) (rd rs : BitVec 5) (s : State) : Out State := wide (.sextH q rd rs) q .sextH rd rs s

/-- ZEXT.H (R158). -/
def execZextH (q : SeqId) (rd rs : BitVec 5) (s : State) : Out State := wide (.zextH q rd rs) q .zextH rd rs s

/-- SEXT.W (R158). -/
def execSextW (q : SeqId) (rd rs : BitVec 5) (s : State) : Out State := wide (.sextW q rd rs) q .sextW rd rs s

/-- ZEXT.W (R158). -/
def execZextW (q : SeqId) (rd rs : BitVec 5) (s : State) : Out State := wide (.zextW q rd rs) q .zextW rd rs s

/-- CLZ.W (R158). -/
def execClzW (q : SeqId) (rd rs : BitVec 5) (s : State) : Out State := wide (.clzW q rd rs) q .clzW rd rs s

/-- CRCB.W (R160). -/
def execCrcbW (q : SeqId) (rd rs : BitVec 5) (s : State) : Out State := wide (.crcbW q rd rs) q .crcbW rd rs s

/-- CRCH (R160). -/
def execCrch (q : SeqId) (rd rs : BitVec 5) (s : State) : Out State := wide (.crch q rd rs) q .crcH rd rs s

/-- CRCW (R160). -/
def execCrcw (q : SeqId) (rd rs : BitVec 5) (s : State) : Out State := wide (.crcw q rd rs) q .crcW rd rs s

/-- CRCF (R160). -/
def execCrcf (q : SeqId) (rd rs : BitVec 5) (s : State) : Out State := wide (.crcf q rd rs) q .crcF rd rs s

/-- CRCI (R160). -/
def execCrci (q : SeqId) (rd : BitVec 5) (s : State) : Out State := wide (.crci q rd) q .crci rd 0 s

/-- SHL.W (R158). -/
def execShlW (q : SeqId) (rd : BitVec 5) (n : ShiftCount) (s : State) : Out State := wide (.shlW q rd n) q (.shlW n) rd 0 s

/-- SHR.W (R158). -/
def execShrW (q : SeqId) (rd : BitVec 5) (n : ShiftCount) (s : State) : Out State := wide (.shrW q rd n) q (.shrW n) rd 0 s

/-- ASR.W (R158). -/
def execAsrW (q : SeqId) (rd : BitVec 5) (n : ShiftCount) (s : State) : Out State := wide (.asrW q rd n) q (.asrW n) rd 0 s

/-- ROL.W (R158). -/
def execRolW (q : SeqId) (rd : BitVec 5) (n : ShiftCount) (s : State) : Out State := wide (.rolW q rd n) q (.rolW n) rd 0 s

/-- ROR.W (R158). -/
def execRorW (q : SeqId) (rd : BitVec 5) (n : ShiftCount) (s : State) : Out State := wide (.rorW q rd n) q (.rorW n) rd 0 s

/-- SHL.H (R158). -/
def execShlH (q : SeqId) (rd : BitVec 5) (n : ShiftCount) (s : State) : Out State := wide (.shlH q rd n) q (.shlH n) rd 0 s

/-- SHR.H (R158). -/
def execShrH (q : SeqId) (rd : BitVec 5) (n : ShiftCount) (s : State) : Out State := wide (.shrH q rd n) q (.shrH n) rd 0 s

/-- ASR.H (R158). -/
def execAsrH (q : SeqId) (rd : BitVec 5) (n : ShiftCount) (s : State) : Out State := wide (.asrH q rd n) q (.asrH n) rd 0 s

/-- ROL.H (R158). -/
def execRolH (q : SeqId) (rd : BitVec 5) (n : ShiftCount) (s : State) : Out State := wide (.rolH q rd n) q (.rolH n) rd 0 s

/-- ROR.H (R158). -/
def execRorH (q : SeqId) (rd : BitVec 5) (n : ShiftCount) (s : State) : Out State := wide (.rorH q rd n) q (.rorH n) rd 0 s

/-- ADDI.H (R158). -/
def execAddiH (q : SeqId) (rd : BitVec 5) (imm : Byte) (s : State) : Out State := wide (.addiH q rd imm) q (.addiH imm) rd 0 s

/-- ADDI.W (R158). -/
def execAddiW (q : SeqId) (rd : BitVec 5) (imm : Byte) (s : State) : Out State := wide (.addiW q rd imm) q (.addiW imm) rd 0 s

/-- CMPI.H (R158). -/
def execCmpiH (q : SeqId) (rd : BitVec 5) (imm : Byte) (s : State) : Out State := wide (.cmpiH q rd imm) q (.cmpiH imm) rd 0 s

/-- CMPI.W (R158). -/
def execCmpiW (q : SeqId) (rd : BitVec 5) (imm : Byte) (s : State) : Out State := wide (.cmpiW q rd imm) q (.cmpiW imm) rd 0 s

end Sys2Proof.Machine
end

