-- ==== Sys2Proof/Machine/LoadStore.lean ====
section
/-!
DEFINITION. Moves, loads, stores, segment registers and the stack (R152 to R157), majors 0x00 to 0x0E.
-/

namespace Sys2Proof.Machine

open Sys2Proof

/-! ### Loads and stores (R152, R153) -/

/-- Register bytes a load or store names: its data register, and H[RX] with MINOR 0x1. -/
def lsTouch (v : View) (f : FormR) : Touch := (tView v f.rd).or (if f.minor = 1 then tH f.rx else tNone)

/-- A load: MINOR not listed is ILLEGAL 0x02; the loaded value stands over a change of the same A register. -/
def loadBody (v : View) (q : SeqId) (f : FormR) (s : State) : Res :=
  let r := s.regs q
  match r.offset f v.size with
  | none => .exn s (illegal r.pc 0x02)
  | some (off, upd) =>
    s.load q f.segn off.toNat v.size .read fun s bs =>
      .done (s.modRegs q fun r => (r.updA f.rs upd).setView v f.rd (ofLeBytes bs))

/-- A store: it reads its data register before A[RS] changes. -/
def storeBody (v : View) (q : SeqId) (f : FormR) (s : State) : Res :=
  let r := s.regs q
  match r.offset f v.size with
  | none => .exn s (illegal r.pc 0x02)
  | some (off, upd) =>
    s.storeSeg q f.segn off.toNat (leBytes v.size (r.view v f.rd)) .write false fun s =>
      .done (s.modRegs q fun r => r.updA f.rs upd)

/-- LDB (R153). -/
def execLdb (q : SeqId) (f : FormR) (s : State) : Out State := .next (runInstr (.ldb q f) q (lsTouch .b f) (loadBody .b q f) s)
/-- LDH (R153). -/
def execLdh (q : SeqId) (f : FormR) (s : State) : Out State := .next (runInstr (.ldh q f) q (lsTouch .h f) (loadBody .h q f) s)
/-- LDW (R153). -/
def execLdw (q : SeqId) (f : FormR) (s : State) : Out State := .next (runInstr (.ldw q f) q (lsTouch .w f) (loadBody .w q f) s)
/-- LDA (R153). -/
def execLda (q : SeqId) (f : FormR) (s : State) : Out State := .next (runInstr (.lda q f) q (lsTouch .a f) (loadBody .a q f) s)
/-- STB (R153). -/
def execStb (q : SeqId) (f : FormR) (s : State) : Out State := .next (runInstr (.stb q f) q (lsTouch .b f) (storeBody .b q f) s)
/-- STH (R153). -/
def execSth (q : SeqId) (f : FormR) (s : State) : Out State := .next (runInstr (.sth q f) q (lsTouch .h f) (storeBody .h q f) s)
/-- STW (R153). -/
def execStw (q : SeqId) (f : FormR) (s : State) : Out State := .next (runInstr (.stw q f) q (lsTouch .w f) (storeBody .w q f) s)
/-- STA (R153). -/
def execSta (q : SeqId) (f : FormR) (s : State) : Out State := .next (runInstr (.sta q f) q (lsTouch .a f) (storeBody .a q f) s)

/-! ### MOVL and MOVX (R154, R155) -/

def movlTouch (f : FormRI) : Touch :=
  match f.minor.toNat with
  | 0x0 => (tH f.rd).or (tH f.rs)
  | 0x1 => (tW f.rd).or (tW f.rs)
  | 0x2 => tH f.rs
  | 0x3 | 0x5 | 0x7 => tH f.rd
  | _ => tNone

/-- What MOVL does to the registers; none for a MINOR not listed. -/
def movlRun (f : FormRI) (r : Regs) : Option Regs :=
  match f.minor.toNat with
  | 0x0 => some (r.setH f.rd (r.H f.rs))
  | 0x1 => some (r.setW f.rd (r.W f.rs))
  | 0x2 => some (r.setA f.rd (r.H f.rs))
  | 0x3 => some (r.setH f.rd (r.A f.rs))
  | 0x4 => some (r.setA f.rd (r.A f.rs))
  | 0x5 => some (r.setH f.rd (f.imm.signExtend 16))
  | 0x6 => some (r.setA f.rd (f.imm.signExtend 16))
  | 0x7 => some (r.setH f.rd (f.imm ++ (r.H f.rd).extractLsb' 0 8))
  | 0x8 => some (r.setA f.rd (f.imm ++ (r.A f.rd).extractLsb' 0 8))
  | _ => none

def movlBody (q : SeqId) (f : FormRI) (s : State) : Res :=
  match movlRun f (s.regs q) with
  | none => .exn s (illegal (s.regs q).pc 0x02)
  | some r => .done (s.modRegs q fun _ => r)

/-- MOVL (R154). -/
def execMovl (q : SeqId) (f : FormRI) (s : State) : Out State := .next (runInstr (.movl q f) q (movlTouch f) (movlBody q f) s)

/-- Number of the special register. -/
def movxNum (f : FormRI) : Nat := f.imm.toNat % 32

/-- W[RD] or W[RS]; all of ST for number 0x00, all of FPC for 0x01 (R213). -/
def movxTouch (f : FormRI) : Touch :=
  if 1 < f.minor.toNat ∨ 32 ≤ f.imm.toNat then tNone else
  { (tW (if f.minor = 0 then f.rd else f.rs)) with
    st := if movxNum f = 0 then 0xFFFF else 0
    fpc := movxNum f == 1 }

/-- MOVX: refusals of R131 and R155, then the read or the write. -/
def movxBody (q : SeqId) (f : FormRI) (s : State) : Res :=
  let r := s.regs q
  let n := movxNum f
  if 1 < f.minor.toNat then .exn s (illegal r.pc 0x02)
  else if 32 ≤ f.imm.toNat || !srAssigned n || (f.minor = 1 && srReadOnly n) then .exn s (illegal r.pc 0x07)
  else if srPriv n && !r.priv then .exn s (privFault r.pc)
  else if f.minor = 0 then .done (s.modRegs q fun r => r.setW f.rd (r.sr q n))
  else .done (s.modRegs q fun r => r.setSr n (r.W f.rs))

/-- MOVX (R155). -/
def execMovx (q : SeqId) (f : FormRI) (s : State) : Out State := .next (runInstr (.movx q f) q (movxTouch f) (movxBody q f) s)

/-! ### SLD and SST (R133, R156) -/

/-- Target register and the COPY bit. -/
def sldReg (f : FormR) : BitVec 3 := f.rd.extractLsb' 0 3
def sldCopy (f : FormR) : Bool := bit f.rd 3

/-- ILLEGAL and PRIV of SLD and SST, in the order of R243. -/
def sldRefuse (r : Regs) (f : FormR) : Option Exn :=
  if 1 < f.minor.toNat then some (illegal r.pc 0x02)
  else if sldCopy f && sldReg f != 0 && sldReg f != 7 then some (illegal r.pc 0x07)
  else if !r.priv then some (privFault r.pc)
  else none

def sldTouch (f : FormR) : Touch := if f.minor = 1 then tH f.rx else tNone

def sldBody (q : SeqId) (f : FormR) (s : State) : Res :=
  let r := s.regs q
  match sldRefuse r f with
  | some e => .exn s e
  | none =>
    match r.offset f 16 with
    | none => .exn s (illegal r.pc 0x02)
    | some (off, _) =>
      s.load q f.segn off.toNat 16 .descR fun s bs =>
        let d : Desc := BitVec.ofNat 128 (ofLeBytes bs)
        match sldCheck (sldReg f) d with
        | some c => .exn s { vec := 4, cause := c, seg := sldReg f, eaddr := off }
        | none =>
          let s := s.modRegs q fun r => r.setSeg (sldReg f) (sldCopy f) d
          .done (if sldReg f = 0 && !sldCopy f then s.modSeq q Seq.flush else s)

/-- SLD (R133). -/
def execSld (q : SeqId) (f : FormR) (s : State) : Out State := .next (runInstr (.sld q f) q (sldTouch f) (sldBody q f) s)

/-- The copy SST stores, with bits [127:72] as 0. -/
def sstDesc (r : Regs) (f : FormR) : Desc :=
  let d := if sldCopy f then r.s[(sldReg f).toNat]'(by have := (sldReg f).isLt; omega) else r.seg (sldReg f)
  d &&& BitVec.ofNat 128 (2 ^ 72 - 1)

def sstBody (q : SeqId) (f : FormR) (s : State) : Res :=
  let r := s.regs q
  match sldRefuse r f with
  | some e => .exn s e
  | none =>
    match r.offset f 16 with
    | none => .exn s (illegal r.pc 0x02)
    | some (off, _) => s.storeSeg q f.segn off.toNat (leBytes 16 (sstDesc r f).toNat) .descW false fun s => .done s

/-- SST (R156). -/
def execSst (q : SeqId) (f : FormR) (s : State) : Out State := .next (runInstr (.sst q f) q (sldTouch f) (sstBody q f) s)

/-! ### LEA, PUSH, POP (R157) -/

def leaRun (f : FormRI) (r : Regs) : Option Regs :=
  match f.minor.toNat with
  | 0x0 => some (r.setA f.rd (r.A f.rs + f.imm.signExtend 16))
  | 0x1 => some (r.setA f.rd (r.A f.rs + r.H f.rx))
  | _ => none

def leaBody (q : SeqId) (f : FormRI) (s : State) : Res :=
  match leaRun f (s.regs q) with
  | none => .exn s (illegal (s.regs q).pc 0x02)
  | some r => .done (s.modRegs q fun _ => r)

/-- LEA (R157). -/
def execLea (q : SeqId) (f : FormRI) (s : State) : Out State :=
  .next (runInstr (.lea q f) q (if f.minor = 1 then tH f.rx else tNone) (leaBody q f) s)

/-- The view a MINOR of PUSH or POP selects. -/
def stackView (m : BitVec 4) : Option View :=
  match m.toNat with
  | 0x0 => some .b
  | 0x1 => some .h
  | 0x2 => some .w
  | 0x3 => some .a
  | _ => none

/-- Stores bytes through the selected S7 below the selected SP, then SP := SP - size (R157, R163). -/
def pushBytes (q : SeqId) (bs : List Byte) (s : State) (cont : State → Res) : Res :=
  let r := s.regs q
  let sp := r.selSp - BitVec.ofNat 16 bs.length
  s.storeSeg q 7 sp.toNat bs .write (decide (r.selSp.toNat < bs.length)) fun s => cont (s.modRegs q fun r => r.setSelSp sp)

/-- Loads bytes through the selected S7 at the selected SP, then SP := SP + size. -/
def popBytes (q : SeqId) (n : Nat) (s : State) (cont : State → List Byte → Res) : Res :=
  let r := s.regs q
  s.load q 7 r.selSp.toNat n .read fun s bs => cont (s.modRegs q fun r => r.setSelSp (r.selSp + BitVec.ofNat 16 n)) bs

def stackTouch (minor : BitVec 4) (rd : BitVec 5) : Touch := ((stackView minor).map fun v => tView v rd).getD tNone

def pushBody (q : SeqId) (minor : BitVec 4) (rd : BitVec 5) (s : State) : Res :=
  match stackView minor with
  | none => .exn s (illegal (s.regs q).pc 0x02)
  | some v => pushBytes q (leBytes v.size ((s.regs q).view v rd)) s .done

def popBody (q : SeqId) (minor : BitVec 4) (rd : BitVec 5) (s : State) : Res :=
  match stackView minor with
  | none => .exn s (illegal (s.regs q).pc 0x02)
  | some v => popBytes q v.size s fun s bs => .done (s.modRegs q fun r => r.setView v rd (ofLeBytes bs))

/-- PUSH (R157). -/
def execPush (q : SeqId) (minor : BitVec 4) (rd : BitVec 5) (s : State) : Out State :=
  .next (runInstr (.push q minor rd) q (stackTouch minor rd) (pushBody q minor rd) s)
/-- POP (R157). -/
def execPop (q : SeqId) (minor : BitVec 4) (rd : BitVec 5) (s : State) : Out State :=
  .next (runInstr (.pop q minor rd) q (stackTouch minor rd) (popBody q minor rd) s)

end Sys2Proof.Machine
end

