-- ==== Sys2Proof/Machine/Float.lean ====
section
/-!
DEFINITION. Floating-point values and their arithmetic (R220 to R229): binary16, bfloat16 and binary32, decoded to
exact numbers, computed exactly, and rounded once.
-/

namespace Sys2Proof.Machine

open Sys2Proof

/-! ### Formats and values -/

/-- The three formats (R220). -/
inductive Fmt where
  | b16 | bf16 | b32
  deriving DecidableEq, Repr

/-- Fraction bits. -/
def Fmt.m : Fmt → Nat
  | .b16 => 10
  | .bf16 => 7
  | .b32 => 23
/-- Exponent bits. -/
def Fmt.e : Fmt → Nat
  | .b16 => 5
  | _ => 8
def Fmt.bias (f : Fmt) : Nat := 2 ^ (f.e - 1) - 1
/-- The view that holds a value of the format (R215). -/
def Fmt.toView : Fmt → View
  | .b32 => .w
  | _ => .h
/-- The format of MINOR[1:0] (R215). -/
def fmtOf (n : Nat) : Option Fmt :=
  match n with
  | 0 => some .b16
  | 1 => some .bf16
  | 2 => some .b32
  | _ => none

/-- A decoded value: a NaN with its fraction, an infinity, or (-1)^neg * mant * 2^exp. -/
inductive FVal where
  | nan (neg : Bool) (frac : Nat)
  | inf (neg : Bool)
  | fin (neg : Bool) (mant : Nat) (exp : Int)
  deriving DecidableEq, Repr

/-- The quiet bit of a fraction (R220). -/
def Fmt.quiet (f : Fmt) (frac : Nat) : Bool := frac.testBit (f.m - 1)

/-- Decodes an encoding; under DAZ a subnormal is zero of its sign (R222). -/
def Fmt.decode (f : Fmt) (daz : Bool) (x : Nat) : FVal :=
  let neg := x.testBit (f.m + f.e)
  let ex := x / 2 ^ f.m % 2 ^ f.e
  let fr := x % 2 ^ f.m
  let emin : Int := 1 - (f.bias : Int) - f.m
  if ex = 2 ^ f.e - 1 then (if fr = 0 then .inf neg else .nan neg fr)
  else if ex = 0 then .fin neg (if daz then 0 else fr) emin
  else .fin neg (2 ^ f.m + fr) ((ex : Int) - f.bias - f.m)

/-- An encoding from its sign, exponent field and fraction; a fraction that overflows carries into the exponent. -/
def Fmt.pack (f : Fmt) (neg : Bool) (ex fr : Nat) : Nat := neg.toNat * 2 ^ (f.m + f.e) + ex * 2 ^ f.m + fr
def Fmt.packInf (f : Fmt) (neg : Bool) : Nat := f.pack neg (2 ^ f.e - 1) 0
def Fmt.packMax (f : Fmt) (neg : Bool) : Nat := f.pack neg (2 ^ f.e - 2) (2 ^ f.m - 1)
def Fmt.packZero (f : Fmt) (neg : Bool) : Nat := f.pack neg 0 0
/-- A NaN with its quiet bit set (R223). -/
def Fmt.packNan (f : Fmt) (neg : Bool) (fr : Nat) : Nat := f.pack neg (2 ^ f.e - 1) (fr ||| 2 ^ (f.m - 1))
/-- The default NaN (R220). -/
def Fmt.qN (f : Fmt) : Nat := f.packNan false 0

/-! ### Flags: bits of FPC.SF (NV 4, DZ 3, OF 2, UF 1, NX 0) -/

def fNV : BitVec 5 := 16
def fDZ : BitVec 5 := 8
def fOX : BitVec 5 := 5
def fUX : BitVec 5 := 3
def fNX : BitVec 5 := 1

/-- A delivered encoding with its flags. -/
structure FRes where
  val : Nat
  fl : BitVec 5
  deriving DecidableEq, Repr

/-! ### Rounding -/

/-- Rounding modes (FPC.RM). -/
inductive Rm where
  | rne | rtz | rup | rdn | rna
  deriving DecidableEq, Repr

def rmOf (n : Nat) : Rm :=
  match n with
  | 1 => .rtz
  | 2 => .rup
  | 3 => .rdn
  | 4 => .rna
  | _ => .rne

/-- mant / 2^k rounded to an integer. -/
def roundAt (rm : Rm) (neg : Bool) (mant k : Nat) : Nat :=
  let q := mant / 2 ^ k
  let r := mant % 2 ^ k
  let up := match rm with
    | .rne => decide (2 ^ k < 2 * r) || (2 * r == 2 ^ k && q % 2 == 1)
    | .rtz => false
    | .rup => r != 0 && !neg
    | .rdn => r != 0 && neg
    | .rna => decide (2 ^ k ≤ 2 * r) && r != 0
  if up then q + 1 else q

/-- Bits of a number: 0 for 0. -/
def bitLen (n : Nat) : Nat := if n = 0 then 0 else Nat.log2 n + 1

/-- An overflowed result (R221). -/
def Fmt.overflow (f : Fmt) (rm : Rm) (neg : Bool) : FRes :=
  let toInf := match rm with
    | .rne | .rna => true
    | .rtz => false
    | .rup => !neg
    | .rdn => neg
  { val := if toInf then f.packInf neg else f.packMax neg, fl := fOX }

/-- Rounds (-1)^neg * mant * 2^exp once (R220, R221, R222). An inexact source carries a sticky lowest bit, far below the
precision. A result is tiny by its magnitude after rounding to the precision with unbounded exponent. -/
def Fmt.round (f : Fmt) (rm : Rm) (ftz : Bool) (neg : Bool) (mant : Nat) (exp : Int) : FRes :=
  if mant = 0 then { val := f.packZero neg, fl := 0 } else
  let p := f.m + 1
  let k := bitLen mant - p
  let u := roundAt rm neg mant k
  let top : Int := exp + k + (bitLen u : Int) - 1
  let emin : Int := 1 - (f.bias : Int)
  if (f.bias : Int) < top then f.overflow rm neg
  else if top < emin then
    if ftz then { val := f.packZero neg, fl := fUX } else
    let q := emin - f.m
    if q ≤ exp then { val := f.pack neg 0 (mant * 2 ^ (exp - q).toNat), fl := 0 }
    else
      let d := (q - exp).toNat
      { val := f.pack neg 0 (roundAt rm neg mant d), fl := if mant % 2 ^ d = 0 then 0 else fUX }
  else
    let sig := u * 2 ^ (p - bitLen u) / 2 ^ (bitLen u - p)
    { val := f.pack neg (top + f.bias).toNat (sig - 2 ^ f.m), fl := if mant % 2 ^ k = 0 then 0 else fNX }

/-! ### NaNs (R223) -/

/-- The result and flags for operands of which at least one is a NaN: the first NaN in the order given, quieted; NV if
any is signalling. -/
def Fmt.nanOf (f : Fmt) (xs : List FVal) : Option FRes :=
  let sig := xs.any fun x => match x with | .nan _ fr => !f.quiet fr | _ => false
  match xs.find? fun x => match x with | .nan _ _ => true | _ => false with
  | some (.nan neg fr) => some { val := f.packNan neg fr, fl := if sig then fNV else 0 }
  | _ => none

/-- An invalid operation without a NaN operand. -/
def Fmt.invalid (f : Fmt) : FRes := { val := f.qN, fl := fNV }

/-! ### Sums, products, quotients, roots -/

/-- The control of an operation: rounding mode, FTZ. -/
structure FCtl where
  rm : Rm
  ftz : Bool
  daz : Bool
  deriving DecidableEq, Repr

/-- A signed integer (-1)^neg * mant, scaled to a common exponent. -/
def scaled (neg : Bool) (mant : Nat) (sh : Nat) : Int := if neg then -((mant * 2 ^ sh : Nat) : Int) else ((mant * 2 ^ sh : Nat) : Int)

/-- The sum of two finite numbers, rounded; the sign of an exact zero sum is R221's. -/
def Fmt.sumFin (f : Fmt) (c : FCtl) (na : Bool) (ma : Nat) (ea : Int) (nb : Bool) (mb : Nat) (eb : Int) : FRes :=
  let e := min ea eb
  let v := scaled na ma (ea - e).toNat + scaled nb mb (eb - e).toNat
  if v = 0 then
    { val := f.packZero (if ma = 0 ∧ mb = 0 ∧ na = nb then na else decide (c.rm = .rdn)), fl := 0 }
  else f.round c.rm c.ftz (decide (v < 0)) v.natAbs e

/-- a + b of decoded values, no NaN among them. -/
def Fmt.sum (f : Fmt) (c : FCtl) (a b : FVal) : FRes :=
  match a, b with
  | .inf na, .inf nb => if na = nb then { val := f.packInf na, fl := 0 } else f.invalid
  | .inf na, _ => { val := f.packInf na, fl := 0 }
  | _, .inf nb => { val := f.packInf nb, fl := 0 }
  | .fin na ma ea, .fin nb mb eb => f.sumFin c na ma ea nb mb eb
  | _, _ => f.invalid

/-- The negated value; a NaN keeps its sign (R225). -/
def FVal.neg : FVal → FVal
  | .nan n fr => .nan n fr
  | .inf n => .inf !n
  | .fin n mt e => .fin (!n) mt e

/-- FADD, and FSUB with the second operand negated. -/
def Fmt.add (f : Fmt) (c : FCtl) (a b : FVal) : FRes := (f.nanOf [a, b]).getD (f.sum c a b)

/-- The exact product of two values that are no NaN; none is an invalid product. -/
def exactMul (a b : FVal) : Option FVal :=
  match a, b with
  | .inf na, .inf nb => some (.inf (na != nb))
  | .inf na, .fin nb mb _ => if mb = 0 then none else some (.inf (na != nb))
  | .fin na ma _, .inf nb => if ma = 0 then none else some (.inf (na != nb))
  | .fin na ma ea, .fin nb mb eb => some (.fin (na != nb) (ma * mb) (ea + eb))
  | _, _ => none

/-- A value that is no NaN, rounded. -/
def Fmt.deliver (f : Fmt) (c : FCtl) (x : FVal) : FRes :=
  match x with
  | .inf n => { val := f.packInf n, fl := 0 }
  | .fin n mt e => f.round c.rm c.ftz n mt e
  | .nan n fr => { val := f.packNan n fr, fl := 0 }

def Fmt.mul (f : Fmt) (c : FCtl) (a b : FVal) : FRes :=
  (f.nanOf [a, b]).getD (match exactMul a b with | none => f.invalid | some p => f.deliver c p)

/-- FMA: Fs * Fx + Fd, rounded once; an infinity times a zero is invalid also beside a NaN addend (R223). -/
def Fmt.fma (f : Fmt) (c : FCtl) (a b d : FVal) : FRes :=
  match f.nanOf [a, b, d] with
  | some r =>
    match f.nanOf [a, b], exactMul a b with
    | none, none => { r with fl := r.fl ||| fNV }
    | _, _ => r
  | none => match exactMul a b with
    | none => f.invalid
    | some p => f.sum c p d

/-- a / b of finite numbers, b nonzero, with a sticky lowest bit. -/
def Fmt.quotFin (f : Fmt) (c : FCtl) (neg : Bool) (ma : Nat) (ea : Int) (mb : Nat) (eb : Int) : FRes :=
  let k := f.m + 4 + bitLen mb
  let n := ma * 2 ^ k
  let q := n / mb
  f.round c.rm c.ftz neg (2 * q + (if n % mb = 0 then 0 else 1)) (ea - eb - k - 1)

def Fmt.quot (f : Fmt) (c : FCtl) (a b : FVal) : FRes :=
  match a, b with
  | .inf _, .inf _ => f.invalid
  | .inf na, .fin nb _ _ => { val := f.packInf (na != nb), fl := 0 }
  | .fin na _ _, .inf nb => { val := f.packZero (na != nb), fl := 0 }
  | .fin na ma ea, .fin nb mb eb =>
    if mb = 0 then
      if ma = 0 then f.invalid else { val := f.packInf (na != nb), fl := fDZ }
    else f.quotFin c (na != nb) ma ea mb eb
  | _, _ => f.invalid

def Fmt.div (f : Fmt) (c : FCtl) (a b : FVal) : FRes := (f.nanOf [a, b]).getD (f.quot c a b)

/-- The integer square root of a number below 2^96. -/
def isqrt (x : Nat) : Nat :=
  (List.range 48).reverse.foldl (fun r i => if (r + 2 ^ i) * (r + 2 ^ i) ≤ x then r + 2 ^ i else r) 0

/-- The root of a positive finite number, with a sticky lowest bit. -/
def Fmt.rootFin (f : Fmt) (c : FCtl) (mt : Nat) (e : Int) : FRes :=
  let odd := e % 2 ≠ 0
  let x := mt * 2 ^ (2 * (f.m + 4)) * (if odd then 2 else 1)
  let e' : Int := (if odd then e - 1 else e) - 2 * ((f.m : Int) + 4)
  let r := isqrt x
  f.round c.rm c.ftz false (2 * r + (if r * r = x then 0 else 1)) (e' / 2 - 1)

def Fmt.sqrt (f : Fmt) (c : FCtl) (a : FVal) : FRes :=
  (f.nanOf [a]).getD (match a with
    | .inf neg => if neg then f.invalid else { val := f.packInf false, fl := 0 }
    | .fin neg mt e =>
      if mt = 0 then { val := f.packZero neg, fl := 0 }
      else if neg then f.invalid
      else f.rootFin c mt e
    | .nan _ _ => f.invalid)

/-! ### Compare, minimum and maximum, class -/

/-- Order key of an encoding that is no NaN, as read under DAZ: its sign and magnitude as an integer. -/
def Fmt.magOf (f : Fmt) (daz : Bool) (x : Nat) : Nat :=
  let mag := x % 2 ^ (f.m + f.e)
  if daz && decide (mag < 2 ^ f.m) then 0 else mag
def Fmt.signOf (f : Fmt) (x : Nat) : Bool := x.testBit (f.m + f.e)
/-- Value order: both zeros are equal (R226). -/
def Fmt.valKey (f : Fmt) (daz : Bool) (x : Nat) : Int :=
  if f.signOf x then -(f.magOf daz x : Int) else f.magOf daz x
/-- Order of FMINMAX: -0 below +0 (R227). -/
def Fmt.totKey (f : Fmt) (daz : Bool) (x : Nat) : Int :=
  if f.signOf x then -(f.magOf daz x : Int) - 1 else f.magOf daz x

def FVal.isNan : FVal → Bool
  | .nan _ _ => true
  | _ => false
def FVal.isSig (f : Fmt) : FVal → Bool
  | .nan _ fr => !f.quiet fr
  | _ => false

/-- The relation of Fs to Fx (R226). -/
inductive Rel where
  | eq | gt | lt | un
  deriving DecidableEq, Repr

def Fmt.rel (f : Fmt) (daz : Bool) (a b : Nat) : Rel :=
  if (f.decode daz a).isNan || (f.decode daz b).isNan then .un
  else if f.valKey daz a = f.valKey daz b then .eq
  else if f.valKey daz a < f.valKey daz b then .lt
  else .gt

/-- ST bits Z, C, N, V, T of a relation under a predicate (R226). -/
def Rel.st (r : Rel) (pred : Nat) : Half :=
  let t : Bool := match pred with
    | 0 => r == .eq
    | 1 => r == .lt
    | 2 => r == .lt || r == .eq
    | _ => r == .un
  let x : Half := match r with
    | .eq => 0x01
    | .gt => 0
    | .lt => 0x06
    | .un => 0x0A
  if t then x ||| 0x20 else x

/-- NV of a comparison: any NaN for a signalling predicate, a signalling one for a quiet predicate. -/
def Fmt.cmpFlags (f : Fmt) (daz : Bool) (pred a b : Nat) : BitVec 5 :=
  let x := f.decode daz a
  let y := f.decode daz b
  if FVal.isSig f x || FVal.isSig f y || ((pred == 1 || pred == 2) && (x.isNan || y.isNan)) then fNV else 0

/-- An operand as read: under DAZ a subnormal is zero of its sign (R222). -/
def Fmt.asRead (f : Fmt) (daz : Bool) (x : Nat) : Nat := f.pack (f.signOf x) 0 (f.magOf daz x)

/-- FMINMAX (R227): op 0 minimum, 1 maximum, 2 minimumNumber, 3 maximumNumber. -/
def Fmt.minmax (f : Fmt) (daz : Bool) (op a b : Nat) : FRes :=
  let x := f.decode daz a
  let y := f.decode daz b
  let fl := if FVal.isSig f x || FVal.isSig f y then fNV else 0
  let pick : Nat :=
    let lt := decide (f.totKey daz b < f.totKey daz a)
    f.asRead daz (if (if op % 2 = 0 then lt else decide (f.totKey daz a < f.totKey daz b)) then b else a)
  if 2 ≤ op ∧ x.isNan ≠ y.isNan then { val := f.asRead daz (if x.isNan then b else a), fl := fl }
  else (f.nanOf [x, y]).getD { val := pick, fl := fl }

/-- The class bit (R229): FCLASS ignores DAZ. -/
def Fmt.classBit (f : Fmt) (x : Nat) : Nat :=
  match f.decode false x with
  | .nan _ fr => if f.quiet fr then 9 else 8
  | .inf neg => if neg then 0 else 7
  | .fin neg mt _ =>
    if mt = 0 then (if neg then 3 else 4)
    else if mt < 2 ^ f.m then (if neg then 2 else 5)
    else if neg then 1 else 6

/-! ### Conversions (R228) -/

/-- The types of FCVT (R215). -/
inductive CvtType where
  | flt (f : Fmt)
  | int (signed : Bool) (v : View)
  deriving DecidableEq, Repr

def cvtType (n : Nat) : Option CvtType :=
  match n with
  | 0x0 => some (.flt .b16)
  | 0x1 => some (.flt .bf16)
  | 0x2 => some (.flt .b32)
  | 0x4 => some (.int false .b)
  | 0x5 => some (.int false .h)
  | 0x6 => some (.int false .w)
  | 0x8 => some (.int true .b)
  | 0x9 => some (.int true .h)
  | 0xA => some (.int true .w)
  | _ => none

def CvtType.view : CvtType → View
  | .flt f => f.toView
  | .int _ v => v

/-- Between formats: the fraction's top bits are kept. -/
def cvtNan (src dst : Fmt) (neg : Bool) (fr : Nat) : FRes :=
  { val := dst.packNan neg (fr * 2 ^ (dst.m - src.m) / 2 ^ (src.m - dst.m)), fl := if src.quiet fr then 0 else fNV }

def cvtFF (c : FCtl) (src dst : Fmt) (x : Nat) : FRes :=
  match src.decode c.daz x with
  | .nan neg fr => cvtNan src dst neg fr
  | v => dst.deliver c v

/-- From an integer of w bits. -/
def cvtIF (c : FCtl) (signed : Bool) (w : Nat) (dst : Fmt) (x : Nat) : FRes :=
  if signed && x.testBit (w - 1) then dst.round c.rm c.ftz true (2 ^ w - x) 0 else dst.round c.rm c.ftz false x 0

/-- Largest and smallest value of an integer type. -/
def intMax (signed : Bool) (w : Nat) : Int := if signed then 2 ^ (w - 1) - 1 else 2 ^ w - 1
def intMin (signed : Bool) (w : Nat) : Int := if signed then -(2 ^ (w - 1)) else 0

/-- A w-bit integer's encoding. -/
def intBits (w : Nat) (v : Int) : Nat := (v % 2 ^ w).toNat

/-- To an integer of w bits: saturated with NV beyond the range. -/
def cvtFI (c : FCtl) (src : Fmt) (signed : Bool) (w : Nat) (x : Nat) : FRes :=
  match src.decode c.daz x with
  | .nan _ _ => { val := intBits w (intMax signed w), fl := fNV }
  | .inf neg => { val := intBits w (if neg then intMin signed w else intMax signed w), fl := fNV }
  | .fin neg mt e =>
    let k := (-e).toNat
    let mag := if 0 ≤ e then mt * 2 ^ e.toNat else roundAt c.rm neg mt k
    let v : Int := if neg then -(mag : Int) else mag
    let inexact := e < 0 ∧ mt % 2 ^ k ≠ 0
    if v < intMin signed w then { val := intBits w (intMin signed w), fl := fNV }
    else if intMax signed w < v then { val := intBits w (intMax signed w), fl := fNV }
    else { val := intBits w v, fl := if inexact then fNX else 0 }

end Sys2Proof.Machine
end

