-- ==== Sys2Proof/Machine/Pool.lean ====
section
/-!
DEFINITION. The multiplier (R164, R165, R209) and the arithmetic pool (R210 to R215, R219, R226 to R233), majors 0x30 to
0x3E, with their landings.
-/

namespace Sys2Proof.Machine

open Sys2Proof

/-! ### The multiplier -/

/-- Width of MINOR[1:0] with bit 3 clear; none for a MINOR that is not allowed (R164, R215). -/
def widthOf (minor : BitVec 4) : Option View :=
  if bit minor 3 then none else
  match (minor.extractLsb' 0 2).toNat with
  | 0 => some .b
  | 1 => some .h
  | 2 => some .w
  | _ => none

/-- A view read as an integer, signed or not. -/
def Regs.viewInt (r : Regs) (v : View) (signed : Bool) (n : BitVec 5) : Int :=
  let x := r.view v n
  if signed && x.testBit (8 * v.size - 1) then (x : Int) - 2 ^ (8 * v.size) else x

/-- MUL and MULA: the product, sign- or zero-extended to 64 bits, is in flight until it lands (R164, R165). -/
def mulBody (q : SeqId) (acc : Bool) (minor : BitVec 4) (rs rx : BitVec 5) (s : State) : Res :=
  let r := s.regs q
  match widthOf minor with
  | none => .exn s (illegal r.pc 0x02)
  | some v =>
    let p := r.viewInt v (bit minor 2) rs * r.viewInt v (bit minor 2) rx
    .done (s.modSeq q fun x => { x with prods := x.prods ++ [{ value := BitVec.ofInt 64 p, acc := acc }] })

/-- Registers that MUL and MULA read. -/
def mulTouch (minor : BitVec 4) (rs rx : BitVec 5) : Touch :=
  match widthOf minor with
  | none => tNone
  | some v => (tView v rs).or (tView v rx)

def execMul (q : SeqId) (minor : BitVec 4) (rs rx : BitVec 5) (s : State) : Out State :=
  .next (runInstr (.mul q minor rs rx) q (mulTouch minor rs rx) (mulBody q false minor rs rx) s)

def execMula (q : SeqId) (minor : BitVec 4) (rs rx : BitVec 5) (s : State) : Out State :=
  .next (runInstr (.mula q minor rs rx) q (mulTouch minor rs rx) (mulBody q true minor rs rx) s)

/-- PRODUCT_LANDING: the oldest product in flight lands in MRH:MRL (R165). -/
def execProductLanding (q : SeqId) (s : State) : Out State :=
  .next (match (s.seq q).prods with
    | [] => s
    | p :: ps => if s.logicOn (galOf q) then s.modSeq q fun x => { x.landProduct p with prods := ps } else s)

/-- POOL_LANDING: the operation in flight lands, and a divider instruction retires (R212, R230). -/
def execPoolLanding (q : SeqId) (s : State) : Out State :=
  .next (match (s.seq q).pool with
    | none => s
    | some p => if s.logicOn (galOf q) then s.modSeq q fun x => x.poolLanded p else s)

/-! ### Pool instructions -/

/-- A pool port is granted: the operation is in flight, and the pool tie rotor moves past the sequencer (R211, R398). -/
def State.poolGrant (s : State) (q : SeqId) (p : PoolOp) (w : Wait := (s.seq q).wait) : State :=
  (s.modSeq q fun x => { x with pool := some p, poolrdy := false, wait := w }).modGal (galOf q) fun g =>
    { g with poolRotor := idxOf q + 1 }

/-- An issue to the pool: a MINOR that is not allowed is ILLEGAL; a second operation holds (R211, R215). -/
def poolBody (q : SeqId) (op : Except Byte PoolOp) (s : State) : Res :=
  match op with
  | .error c => .exn s (illegal (s.regs q).pc c)
  | .ok p => if (s.seq q).pool.isSome then .hold s else .done (s.poolGrant q p)

/-- An issue to the divider: the instruction holds until the operation lands (R212). -/
def dividerBody (q : SeqId) (op : Except Byte PoolOp) (s : State) : Res :=
  match op with
  | .error c => .exn s (illegal (s.regs q).pc c)
  | .ok p => if (s.seq q).pool.isSome then .hold s else .wait (s.poolGrant q p .pool)

/-- What a pool instruction touches: nothing where it is ILLEGAL. -/
def poolTouch (op : Except Byte PoolOp) (t : Touch) : Touch :=
  match op with
  | .error _ => tNone
  | .ok _ => t

/-- A pool instruction whose operation `op` is formed from the registers as they stand. -/
def poolInstr (i : Instr) (q : SeqId) (op : Regs → Except Byte PoolOp) (t : Touch) (s : State) : State :=
  runInstr i q (poolTouch (op (s.regs q)) t) (fun s => poolBody q (op (s.regs q)) s) s

/-- A divider instruction: DIV, REM, FDIV, FSQRT (R210). -/
def dividerInstr (i : Instr) (q : SeqId) (op : Regs → Except Byte PoolOp) (t : Touch) (s : State) : State :=
  runInstr i q (poolTouch (op (s.regs q)) t) (fun s => dividerBody q (op (s.regs q)) s) s

/-- FPC's control fields (R126, R222). -/
def Regs.fctl (r : Regs) : FCtl :=
  { rm := rmOf (r.fpc &&& 7).toNat, ftz := bit r.fpc 29, daz := bit r.fpc 30 }

/-! ### DIV and REM (R219) -/

/-- Quotient, remainder, T and V of a division of w-bit integers. -/
structure DivRes where
  quo : Int
  rem : Int
  t : Bool
  v : Bool
  deriving DecidableEq, Repr

def divide (w : Nat) (signed : Bool) (a b : Int) : DivRes :=
  if b = 0 then { quo := -1, rem := a, t := true, v := false }
  else if signed ∧ a = -(2 ^ (w - 1)) ∧ b = -1 then { quo := a, rem := 0, t := false, v := true }
  else { quo := Int.tdiv a b, rem := Int.tmod a b, t := false, v := false }

/-- ST bits Z, N, T, V from the value written. -/
def divSt (w : Nat) (x : Nat) (t v : Bool) : Half :=
  (if x = 0 then 0x01 else 0) ||| (if x.testBit (w - 1) then 0x04 else 0) ||| (if t then 0x20 else 0) ||| (if v then 0x08 else 0)

def divOp (isRem : Bool) (minor : BitVec 4) (rd rs rx : BitVec 5) (r : Regs) : Except Byte PoolOp :=
  match widthOf minor with
  | none => .error 0x02
  | some v =>
    let w := 8 * v.size
    let sg := bit minor 2
    let d := divide w sg (r.viewInt v sg rs) (r.viewInt v sg rx)
    let x := intBits w (if isRem then d.rem else d.quo)
    .ok { result := BitVec.ofNat 32 x, dest := some (v.size, rd), stMask := 0x2D, stVal := divSt w x d.t d.v, fp := false,
          flags := 0, divz := some (r.viewInt v sg rx == 0), pc := r.pc }

def divTouch (minor : BitVec 4) (rd rs rx : BitVec 5) : Touch :=
  match widthOf minor with
  | none => tNone
  | some v => (((tView v rd).or (tView v rs)).or (tView v rx)).or (tSt 0x2D)

def execDiv (q : SeqId) (minor : BitVec 4) (rd rs rx : BitVec 5) (s : State) : Out State :=
  .next (dividerInstr (.div q minor rd rs rx) q (divOp false minor rd rs rx) (divTouch minor rd rs rx) s)

def execRem (q : SeqId) (minor : BitVec 4) (rd rs rx : BitVec 5) (s : State) : Out State :=
  .next (dividerInstr (.rem q minor rd rs rx) q (divOp true minor rd rs rx) (divTouch minor rd rs rx) s)

/-! ### Floating point (R215, R220) -/

/-- The format of a MINOR whose bits [3:2] must be 0; none where it is not allowed. -/
def fmtMinor (minor : BitVec 4) : Option Fmt := if minor.toNat < 4 then fmtOf minor.toNat else none

/-- A floating-point operation with its result and flags. -/
def fpOp (v : View) (rd : BitVec 5) (r : Regs) (x : FRes) : PoolOp :=
  { result := BitVec.ofNat 32 x.val, dest := some (v.size, rd), stMask := 0, stVal := 0, fp := true, flags := x.fl,
    divz := none, pc := r.pc }

/-- All of FPC. -/
def tFpc : Touch := { fpc := true }

/-- An arithmetic operation of three operands. -/
def arithOp (g : Fmt → FCtl → FVal → FVal → FVal → FRes) (minor : BitVec 4) (rd rs rx : BitVec 5) (r : Regs) : Except Byte PoolOp :=
  match fmtMinor minor with
  | none => .error 0x02
  | some f =>
    let c := r.fctl
    let rd' (n : BitVec 5) : FVal := f.decode c.daz (r.view f.toView n)
    .ok (fpOp f.toView rd r (g f c (rd' rs) (rd' rx) (rd' rd)))

/-- Registers of an arithmetic operation, with or without RX. -/
def arithTouch (minor : BitVec 4) (rd rs rx : BitVec 5) (two : Bool) : Touch :=
  match fmtMinor minor with
  | none => tNone
  | some f => (((tView f.toView rd).or (tView f.toView rs)).or (if two then tView f.toView rx else tNone)).or tFpc

/-- FADD (R220). -/
def execFadd (q : SeqId) (minor : BitVec 4) (rd rs rx : BitVec 5) (s : State) : Out State :=
  .next (poolInstr (.fadd q minor rd rs rx) q (arithOp (fun f c a b _ => f.add c a b) minor rd rs rx) (arithTouch minor rd rs rx true) s)

/-- FSUB: FADD of the negated operand (R225). -/
def execFsub (q : SeqId) (minor : BitVec 4) (rd rs rx : BitVec 5) (s : State) : Out State :=
  .next (poolInstr (.fsub q minor rd rs rx) q (arithOp (fun f c a b _ => f.add c a b.neg) minor rd rs rx) (arithTouch minor rd rs rx true) s)

/-- FMUL (R220). -/
def execFmul (q : SeqId) (minor : BitVec 4) (rd rs rx : BitVec 5) (s : State) : Out State :=
  .next (poolInstr (.fmul q minor rd rs rx) q (arithOp (fun f c a b _ => f.mul c a b) minor rd rs rx) (arithTouch minor rd rs rx true) s)

/-- FDIV (R220). -/
def execFdiv (q : SeqId) (minor : BitVec 4) (rd rs rx : BitVec 5) (s : State) : Out State :=
  .next (dividerInstr (.fdiv q minor rd rs rx) q (arithOp (fun f c a b _ => f.div c a b) minor rd rs rx) (arithTouch minor rd rs rx true) s)

/-- FSQRT: RX is ignored (R215). -/
def execFsqrt (q : SeqId) (minor : BitVec 4) (rd rs rx : BitVec 5) (s : State) : Out State :=
  .next (dividerInstr (.fsqrt q minor rd rs rx) q (arithOp (fun f c a _ _ => f.sqrt c a) minor rd rs rx) (arithTouch minor rd rs rx false) s)

/-- FMA: Fs * Fx + Fd, rounded once (R215, R220). -/
def execFma (q : SeqId) (minor : BitVec 4) (rd rs rx : BitVec 5) (s : State) : Out State :=
  .next (poolInstr (.fma q minor rd rs rx) q (arithOp (fun f c a b d => f.fma c a b d) minor rd rs rx) (arithTouch minor rd rs rx true) s)

/-! ### FCMP, FCVT, FMINMAX, FCLASS, FBAR -/

/-- FCMP writes no register (R226); what POOLR holds after it is a free value, the k-th (log 3). -/
def fcmpOp (k : Nat) (minor : BitVec 4) (rs rx : BitVec 5) (r : Regs) : Except Byte PoolOp :=
  match fmtOf (minor.toNat % 4) with
  | none => .error 0x02
  | some f =>
    let daz := r.fctl.daz
    let a := r.view f.toView rs
    let b := r.view f.toView rx
    .ok { result := Config.freeWord k, dest := none, stMask := 0x2F, stVal := (f.rel daz a b).st (minor.toNat / 4), fp := true,
          flags := f.cmpFlags daz (minor.toNat / 4) a b, divz := none, pc := r.pc }

def fcmpTouch (minor : BitVec 4) (rs rx : BitVec 5) : Touch :=
  match fmtOf (minor.toNat % 4) with
  | none => tNone
  | some f => (((tView f.toView rs).or (tView f.toView rx)).or (tSt 0x2F)).or tFpc

/-- FCMP (R226). -/
def execFcmp (q : SeqId) (minor : BitVec 4) (_rd rs rx : BitVec 5) (s : State) : Out State :=
  .next (if s.ready q then (poolInstr (.fcmp q minor _rd rs rx) q (fcmpOp s.freeCtr minor rs rx) (fcmpTouch minor rs rx) s).fresh else s)

/-- FCVT: the destination type in MINOR, the source type in RX[3:0], TZ in RX[4] (R215, R228). -/
def fcvtOp (minor : BitVec 4) (rd rs rx : BitVec 5) (r : Regs) : Except Byte PoolOp :=
  let c := if bit rx 4 then { r.fctl with rm := .rtz } else r.fctl
  match cvtType minor.toNat with
  | none => .error 0x02
  | some d =>
    match cvtType (rx.toNat % 16), d with
    | none, _ => .error 0x07
    | some (.int _ _), .int _ _ => .error 0x07
    | some (.int sg v), .flt f =>
      if bit rx 4 then .error 0x07 else .ok (fpOp f.toView rd r (cvtIF c sg (8 * v.size) f (r.view v rs)))
    | some (.flt g), .flt f => if bit rx 4 then .error 0x07 else .ok (fpOp f.toView rd r (cvtFF c g f (r.view g.toView rs)))
    | some (.flt g), .int sg v => .ok (fpOp v rd r (cvtFI c g sg (8 * v.size) (r.view g.toView rs)))

def fcvtTouch (minor : BitVec 4) (rd rs rx : BitVec 5) : Touch :=
  match cvtType minor.toNat, cvtType (rx.toNat % 16) with
  | some d, some g => ((tView d.view rd).or (tView g.view rs)).or tFpc
  | _, _ => tNone

/-- FCVT (R228). -/
def execFcvt (q : SeqId) (minor : BitVec 4) (rd rs rx : BitVec 5) (s : State) : Out State :=
  .next (poolInstr (.fcvt q minor rd rs rx) q (fcvtOp minor rd rs rx) (fcvtTouch minor rd rs rx) s)

def fminmaxOp (minor : BitVec 4) (rd rs rx : BitVec 5) (r : Regs) : Except Byte PoolOp :=
  match fmtOf (minor.toNat % 4) with
  | none => .error 0x02
  | some f => .ok (fpOp f.toView rd r (f.minmax r.fctl.daz (minor.toNat / 4) (r.view f.toView rs) (r.view f.toView rx)))

def fminmaxTouch (minor : BitVec 4) (rd rs rx : BitVec 5) : Touch :=
  match fmtOf (minor.toNat % 4) with
  | none => tNone
  | some f => (((tView f.toView rd).or (tView f.toView rs)).or (tView f.toView rx)).or tFpc

/-- FMINMAX (R227). -/
def execFminmax (q : SeqId) (minor : BitVec 4) (rd rs rx : BitVec 5) (s : State) : Out State :=
  .next (poolInstr (.fminmax q minor rd rs rx) q (fminmaxOp minor rd rs rx) (fminmaxTouch minor rd rs rx) s)

def fclassOp (minor : BitVec 4) (rd rs : BitVec 5) (r : Regs) : Except Byte PoolOp :=
  match fmtMinor minor with
  | none => .error 0x02
  | some f => .ok (fpOp .h rd r { val := 2 ^ f.classBit (r.view f.toView rs), fl := 0 })

def fclassTouch (minor : BitVec 4) (rd rs : BitVec 5) : Touch :=
  match fmtMinor minor with
  | none => tNone
  | some f => ((tH rd).or (tView f.toView rs)).or tFpc

/-- FCLASS (R229). -/
def execFclass (q : SeqId) (minor : BitVec 4) (rd rs _rx : BitVec 5) (s : State) : Out State :=
  .next (poolInstr (.fclass q minor rd rs _rx) q (fclassOp minor rd rs) (fclassTouch minor rd rs) s)

/-- FBAR holds while an operation is in flight (R233). -/
def fbarBody (q : SeqId) (s : State) : Res := if (s.seq q).pool.isSome then .hold s else .done s

def execFbar (q : SeqId) (s : State) : Out State := .next (runInstr (.fbar q) q tNone (fbarBody q) s)

end Sys2Proof.Machine
end

