-- ==== Sys2Proof/Machine/Lines.lean ====
section
/-!
DEFINITION. Window operands of stream instructions: media requests that wait in a channel (R270, R271), chunk reads in
staging lines (R182, R184), chunk writes (R183), and the roles of segments (R172, R174).
-/

namespace Sys2Proof.Machine

open Sys2Proof

/-! ### Requests -/

/-- A request of sequencer q for its bound context (R270). -/
def State.mkReq (s : State) (q : SeqId) (addr len : Nat) (p : Purpose) : MReq :=
  let c := (s.regs q).ctxid
  { rid := (s.gal (galOf q)).md.nextRid, addr := addr, len := len, ctx := c
    tenant := BitVec.ofNat 8 (s.ctxField c 6 1), seq := q, purpose := p }

/-- The request joins those that wait in the gallery's channel. -/
def State.addReq (s : State) (g : GalId) (r : MReq) : State :=
  s.modMd g fun m => { m with waiting := m.waiting ++ [r], nextRid := m.nextRid + 1 }

/-! ### Roles (R172, R174) -/

inductive Role where
  | scratch | window | any | own
  deriving DecidableEq, Repr

/-- The roles: types 1, 2, 3, 6 are scratch; 4, 5 windows; `own` is scratch whose base lies in the sequencer's gallery. -/
def Role.fits (k : Role) (q : SeqId) (d : Desc) : Bool :=
  let scr := Desc.typ d == 1 || Desc.typ d == 2 || Desc.typ d == 3 || Desc.typ d == 6
  match k with
  | .scratch => scr
  | .window => Desc.window d
  | .any => scr || Desc.window d
  | .own => scr && (match placeOf (Desc.first d) with | .scratch g _ => g == galOf q | _ => false)

/-- The role, then the access check (R174, R135). -/
def State.streamCheck (s : State) (q : SeqId) (n : BitVec 3) (role : Role) (off size : Nat) (k : Kind) : Except Exn Nat :=
  let d := (s.regs q).seg n
  if role.fits q d then (s.regs q).check n off size k
  else .error { vec := 4, cause := 0x31, seg := n, eaddr := checkEaddr d off k }

/-! ### Chunk reads (R182) -/

/-- The line that holds the chunk of an operand at address a. -/
def State.chunkAt (s : State) (q : SeqId) (op a : Nat) : Option (Fin 16) :=
  (List.finRange 16).find? fun i =>
    let l := (s.gal (galOf q)).lines[i]
    l.busy && l.chunk && l.seq = q && l.dest = op && l.e ≤ a && a < l.e + l.m

/-- The gallery's oldest unbound run-ahead line. -/
def Gal.oldestRa (x : Gal) : Option (Fin 16) :=
  (List.finRange 16).foldl (fun b i =>
    let l := x.lines[i]
    if l.busy && !l.chunk && l.bound.isNone then
      match b with
      | none => some i
      | some j => if l.born < x.lines[j].born then some i else b
    else b) none

/-- A line for a chunk: a free one, else the oldest unbound run-ahead line, released (R182, R208). -/
def State.lineForChunk (s : State) (g : GalId) : Option (Fin 16 × State) :=
  match (List.finRange 16).find? fun i => !(s.gal g).lines[i].busy with
  | some i => some (i, s)
  | none =>
    match (s.gal g).oldestRa with
    | none => none
    | some i =>
      let l := (s.gal g).lines[i]
      some (i, (s.freeLine g i).modSeq l.seq fun x => { x with ra := { x.ra with rel := satInc8 x.ra.rel } })

/-- Issues the chunk read of an operand from address a, within its 4 KiB block and below `stop`, unless a line holds it. -/
def State.ensureChunk (s : State) (q : SeqId) (op a stop : Nat) : State :=
  match s.chunkAt q op a with
  | some _ => s
  | none =>
    match s.lineForChunk (galOf q) with
    | none => s
    | some (i, s) =>
      let m := min ((a / 4096 + 1) * 4096) stop - a
      let c := (s.regs q).ctxid
      let line (x : Gal) : Line :=
        { busy := true, chunk := true, ctx := c, e := a, m := m, seq := q, dest := op, born := x.md.nextRid }
      let s := s.modGal (galOf q) fun x => { x with lines := x.lines.set i (line x) }
      s.addReq (galOf q) (s.mkReq q a m (.chunkR i))

/-- Chunk reads of a sequencer in flight. -/
def State.chunksInFlight (s : State) (q : SeqId) : Nat :=
  ((List.finRange 16).filter fun i =>
    let l := (s.gal (galOf q)).lines[i]
    l.busy && l.chunk && l.seq = q && l.outcome.isNone).length

/-- Frees the chunk lines of an operand whose bytes have been consumed: those that end at or below address a (R182). -/
def State.consumeChunks (s : State) (q : SeqId) (op a : Nat) : State :=
  s.each (List.finRange 16) fun s i =>
    let l := (s.gal (galOf q)).lines[i]
    if l.busy && l.chunk && l.seq = q && l.dest = op && l.e + l.m ≤ a then s.freeLine (galOf q) i else s

/-! ### Reading an operand -/

/-- What reading an operand comes to: its bytes (fewer than asked where a chunk came SHORT) with the granule of a LONG
chunk, a fault, a stall (SSTALL or a bank waking), or an answer RETRY. -/
inductive Src where
  | ok (s : State) (bs : List Byte) (long : Option Half)
  | err (s : State) (e : Exn)
  | stall (s : State)
  | retry

/-- The first address of each chunk that the range touches: its own first address and each block start inside. -/
def chunkStarts (a n : Nat) : List Nat := if a / 4096 = (a + n - 1) / 4096 then [a] else [a, (a + n - 1) / 4096 * 4096]

/-- The bytes that the lines hold of a range, as far as they were delivered. -/
def State.chunkBytes (s : State) (q : SeqId) (op a : Nat) : Nat → List Byte
  | 0 => []
  | n + 1 =>
    match s.chunkAt q op a with
    | none => []
    | some i =>
      let l := (s.gal (galOf q)).lines[i]
      match l.bytes[a - l.e]? with
      | none => []
      | some b => b :: State.chunkBytes s q op (a + 1) n

/-- Outcome codes of a media response (R278). -/
def outOK : BitVec 3 := 0
def outSHORT : BitVec 3 := 1
def outLONG : BitVec 3 := 2
def outERROR : BitVec 3 := 3
def outDECLINED : BitVec 3 := 5

/-- A window operand's bytes (R182, R184). No step passes before the response of every chunk it needs (log 15). -/
def State.windowRead (s : State) (q : SeqId) (n : BitVec 3) (op off a size stop : Nat) : Src :=
  let starts := chunkStarts a size
  let s := s.each starts fun s x => s.ensureChunk q op x stop
  let lines := starts.filterMap fun x => s.chunkAt q op x
  if lines.length < starts.length then .stall s else
  let line (i : Fin 16) : Line := (s.gal (galOf q)).lines[i]
  let after := lines.foldl (fun m i => max m ((line i).e + (line i).m)) 0
  let s := if after < stop && s.chunksInFlight q < 2 then s.ensureChunk q op after stop else s
  let bad (o : Nat) : Exn := { vec := 3, cause := 0x21, seg := n, eaddr := BitVec.ofNat 16 (o / 0x10000) }
  if lines.any fun i => (line i).outcome.isNone then .stall s
  else if lines.any fun i => match (line i).outcome with | some c => outLONG < c | none => false then .err s (bad off)
  else
    let bs := s.chunkBytes q op a size
    let long := (lines.find? fun i => (line i).outcome = some outLONG).map fun i =>
      BitVec.ofNat 16 ((off + (line i).e - a) / 0x10000)
    if bs.isEmpty then .err s (bad off) else .ok s bs long

/-- Reads size bytes of an operand at an offset; `stop` is the offset at which its whole range ends. -/
def State.source (s : State) (q : SeqId) (n : BitVec 3) (role : Role) (op off size stop : Nat) : Src :=
  match s.streamCheck q n role off size .sread with
  | .error e => .err s e
  | .ok a =>
    if Desc.window ((s.regs q).seg n) then s.windowRead q n op off a size (a + (stop - off))
    else match s.memRead q a size with
      | .ok s bs => .ok s bs none
      | .bus s c => .err s { vec := 3, cause := c, seg := n, eaddr := BitVec.ofNat 16 off }
      | .wait s => .stall s
      | .retry => .retry

/-! ### Chunk writes (R183) -/

/-- Bytes that the chunk writes of a long instruction can still take. -/
def LongOp.room (l : LongOp) : Nat := (l.chunks.map fun c => c.len - c.pushed).sum

/-- Chunk writes whose response has not arrived. -/
def LongOp.inFlight (l : LongOp) : Nat := (l.chunks.filter fun c => c.outcome.isNone).length

/-- Makes the chunk writes that n bytes at address a need, at most 8 in flight; false where the step must stall. -/
def State.ensureWrites (s : State) (q : SeqId) (l : LongOp) (a n stop : Nat) : Nat → State × LongOp × Bool
  | 0 => (s, l, true)
  | k + 1 =>
    if n ≤ l.room then (s, l, true)
    else if 8 ≤ l.inFlight then (s, l, false)
    else
      let x := a + l.room
      let m := min ((x / 4096 + 1) * 4096) stop - x
      let r := s.mkReq q x m (.chunkW [] false)
      State.ensureWrites (s.addReq (galOf q) r) q
        { l with chunks := l.chunks ++ [{ rid := r.rid, len := m, pushed := 0, outcome := none }] } a n stop k

/-- Some chunk write of q is not issued yet: it lacks a tag, a credit or its reservation. -/
def State.writesWaiting (s : State) (q : SeqId) : Bool :=
  (s.gal (galOf q)).md.waiting.any fun r => r.seq = q && (match r.purpose with | .chunkW _ _ => true | _ => false)

/-- Appends pushed bytes to the write of request rid. -/
def MReq.feed (r : MReq) (rid : Nat) (bs : List Byte) : MReq :=
  match r.purpose with
  | .chunkW d e => if r.rid = rid then { r with purpose := .chunkW (d ++ bs) e } else r
  | _ => r

def State.feedReq (s : State) (g : GalId) (rid : Nat) (bs : List Byte) : State :=
  let feed (t : Tag) : Tag := { t with req := t.req.feed rid bs }
  s.modMd g fun m => { m with tags := m.tags.map feed, unsent := m.unsent.map feed }

/-- Pushes bytes into the chunk writes in order. -/
def State.feedChunks (s : State) (q : SeqId) : List ChunkW → List Byte → State × List ChunkW
  | [], _ => (s, [])
  | c :: cs, bs =>
    let k := min (c.len - c.pushed) bs.length
    let s := if k = 0 then s else s.feedReq (galOf q) c.rid (bs.take k)
    let (s, cs) := State.feedChunks s q cs (bs.drop k)
    (s, { c with pushed := c.pushed + k } :: cs)

/-- What writing an operand comes to. -/
inductive Snk where
  | ok (s : State) (l : LongOp)
  | err (s : State) (e : Exn)
  | stall (s : State) (l : LongOp)
  | retry

/-- Writes bytes at a checked engine address: memory, or chunk writes of a window (R183). -/
def State.sink (s : State) (q : SeqId) (l : LongOp) (n : BitVec 3) (off a : Nat) (bs : List Byte) (stop : Nat) : Snk :=
  if Desc.window ((s.regs q).seg n) then
    match s.ensureWrites q l a bs.length stop 4 with
    | (s, l, true) =>
      if s.writesWaiting q then .stall s l
      else
        let (s, cs) := s.feedChunks q l.chunks bs
        .ok s { l with chunks := cs }
    | (s, l, false) => .stall s l
  else match s.memWrite q a bs with
    | .ok s _ => .ok s l
    | .bus s c => .err s { vec := 3, cause := c, seg := n, eaddr := BitVec.ofNat 16 off }
    | .wait s => .stall s l
    | .retry => .retry

end Sys2Proof.Machine
end

