-- ==== Sys2Proof/Machine/Digest.lean ====
section
/-!
DEFINITION. The digest port: sessions, the order in which they gain the digest engine, its transactions, DGST.C and the
comparator (R199, R284 to R290).
-/

namespace Sys2Proof.Machine

open Sys2Proof

/-! ### Sessions -/

/-- Block size in bytes (R284): 64 for SHA-256, 128 for SHA-384 and SHA-512. -/
def Session.block (x : Session) : Nat := if x.alg = 1 then 64 else 128
/-- S, the size of the chaining value (R284). -/
def Session.chain (x : Session) : Nat := if x.alg = 1 then 32 else 64
/-- Bytes of the result (R284). -/
def Session.result (x : Session) : Nat := if x.alg = 1 then 32 else if x.alg = 2 then 48 else 64

def State.ses (s : State) (i : Fin 256) : Session := s.dg.ses[i]
def State.modSes (s : State) (i : Fin 256) (f : Session → Session) : State :=
  { s with dg := { s.dg with ses := s.dg.ses.set i (f (s.ses i)) } }

/-- What the sequencer that uses a session waits for. -/
def State.sesOp (s : State) (i : Fin 256) : Option (SeqId × DgOp × FormS) :=
  match (s.ses i).user with
  | none => none
  | some q => match (s.seq q).wait with
    | .digest op f => some (q, op, f)
    | _ => none

/-! ### Order and start of transactions (R284, R288) -/

/-- The transaction that a session wants next, once its state is in the digest engine. -/
def State.dgWork (s : State) (i : Fin 256) : Option DgTxn :=
  let x := s.ses i
  if !x.opened || x.err != 0 then none
  else if x.block ≤ x.buf.length then some .block
  else match s.sesOp i with
    | some (_, .final, _) => some .finish
    | some (_, .check, _) => some .fincmp
    | some (_, .save, _) => some .readout
    | _ => none

/-- Starts a transaction of session i; a BLOCK takes its bytes from the buffer. -/
def State.dgStart (s : State) (i : Fin 256) (t : DgTxn) : State :=
  let x := s.ses i
  let sent := match t with
    | .block => x.buf.take x.block
    | .restore => x.h
    | .fincmp => x.reference
    | _ => []
  let s := { s with dg := { s.dg with
    txn := some (t, i), holder := some i, waiting := s.dg.waiting.filter (· != i), lastData := sent } }
  if t = .block then s.modSes i fun x => { x with buf := x.buf.drop x.block } else s

/-- The engine is idle: no transaction and no comparison outstanding. -/
def State.dgIdle (s : State) : Bool := s.dg.txn.isNone && s.dg.cmpWait.isNone

/-- An idle engine goes on with its holder while no other session waits (R288). -/
def State.dgKick (s : State) : State :=
  if !s.dgIdle then s else
  match s.dg.holder with
  | none => s
  | some i =>
    if s.dg.waiting.any (· != i) then s else
    match s.dgWork i with
    | none => s
    | some t => s.dgStart i t

/-- A session has a transaction waiting: it takes its place in the order (R288). -/
def State.dgWant (s : State) (i : Fin 256) : State :=
  if (s.dgWork i).isNone then s
  else
    let s := if s.dg.waiting.contains i then s else { s with dg := { s.dg with waiting := s.dg.waiting ++ [i] } }
    s.dgKick

/-- The digest engine is granted to a context session: the port's tie rotor moves past it (R398). -/
def Dg.granted (d : Dg) (i : Fin 256) : Dg :=
  if i.val < 252 then { d with rotor := Fin.ofNat 252 (i.val + 1) } else d

/-- A session gains the engine: INIT, or RESTORE of its chaining value. -/
def State.dgGain (s : State) (i : Fin 256) : State :=
  if (s.dgWork i).isNone then { s with dg := { s.dg with waiting := s.dg.waiting.filter (· != i), holder := none } }
  else
    let s := { s with dg := s.dg.granted i }
    s.dgStart i (if (s.ses i).started then .restore else .init)

/-- The first in the order of waiting sessions but one: MP sessions, then context sessions (R288). -/
def State.dgFirst (s : State) (but : Option (Fin 256)) : Option (Fin 256) :=
  let w := s.dg.waiting.filter fun i => but != some i
  (w.find? fun i => decide (252 ≤ i.val)).orElse fun _ => w.head?

/-- After a yield's READOUT the next session gains the engine; the old holder only where no other waits (R288). -/
def State.dgYielded (s : State) (i : Fin 256) : State :=
  let s := { s with dg := { s.dg with holder := none } }
  match s.dgFirst (some i) with
  | some j => s.dgGain j
  | none => if s.dg.waiting.contains i then s.dgGain i else s

/-- DIGEST_GRANT: the first waiting session gains the engine; a holder with state yields by a READOUT first (R288). -/
def State.digestGrant (s : State) : State :=
  if !s.dgIdle then s else
  match s.dgFirst s.dg.holder with
  | none => s.dgKick
  | some j =>
    match s.dg.holder with
    | none => s.dgGain j
    | some h =>
      if (s.ses h).opened && (s.ses h).started && (s.ses h).err = 0 then
        let s := { s with dg := { s.dg with txn := some (.readout, h) } }
        s
      else s.dgGain j

def execDigestGrant (s : State) : Out State := .next s.digestGrant

/-! ### Outcomes of DGST.C (R286) -/

def dgNOSESS : BitVec 4 := 1
def dgISOPEN : BitVec 4 := 2
def dgKEY : BitVec 4 := 3
def dgDENIED : BitVec 4 := 4
def dgPARTIAL : BitVec 4 := 5
def dgIMAGE : BitVec 4 := 6
def dgPORT : BitVec 4 := 7
def dgCOUNT : BitVec 4 := 8
def dgGLITCH : BitVec 4 := 9

/-- Wd[31:24] := code, Z := (code = 0), T where CHECK sets it, RES := 0 (R286, R177). -/
def Regs.dgOutcome (r : Regs) (f : FormS) (code : BitVec 4) (t : Option Bool) : Regs :=
  let wd := r.W f.rd
  let r := r.setW f.rd ((wd &&& 0x00FFFFFF) ||| (code.setWidth 32 <<< 24))
  { (r.flags { z := some (code == 0), t := t }) with
    st := putBit (r.flags { z := some (code == 0), t := t }).st stRES false }

/-- A DGST.C that waited completes and retires. -/
def State.dgRetire (s : State) (q : SeqId) (f : FormS) (code : BitVec 4) (t : Option Bool) : State :=
  (s.modRegs q fun r => r.dgOutcome f code t).modSeq q fun x => { x with wait := .none }.retire (x.regs.pc + 4)

/-- The operation that waits on session i ends with a code: FINAL, CHECK and ABORT close the session (R285, R286). CHECK
sets T only for a valid "equal" (R199). -/
def State.dgEnd (s : State) (i : Fin 256) (code : BitVec 4) (t : Option Bool) : State :=
  match s.sesOp i with
  | none => s
  | some (q, op, f) =>
    let s := s.modSes i fun x => { x with user := none }
    let s := match op with
      | .final | .check | .abort => s.closeSession i
      | _ => s
    s.dgRetire q f code (if op = .check then some (t.getD false) else none)

/-! ### Memory of DGST.C -/

/-- Whether a range can be reached now: the door of its gallery and its banks, as an access would meet them. -/
def State.memReach (s : State) (q : SeqId) (a n : Nat) : Acc Unit :=
  match placeOf a with
  | .nowhere => .bus s 0x21
  | .ctx _ => .ok s ()
  | .scratch g off =>
    match s.door q g with
    | .bus c => .bus s c
    | .retry => .retry
    | .open =>
      if !(s.gal g).bankAwake (bankOf off) || !(s.gal g).bankAwake (bankOf (off + n - 1)) then .wait (s.wakeBanks g off n)
      else .ok s ()

/-- Splits bytes at the 4 KiB blocks of their addresses (R183). -/
def blockPieces (a : Nat) (bs : List Byte) : List (Nat × List Byte) :=
  let k := (a / 4096 + 1) * 4096 - a
  if bs.length ≤ k then [(a, bs)] else [(a, bs.take k), (a + k, bs.drop k)]

/-- The bytes of FINAL or SAVE go to Ss:Ws, and the operation ends. A window takes them as chunk writes: the instruction
completes when they are answered (R183). -/
def State.dgDeliver (s : State) (q : SeqId) (f : FormS) (bs : List Byte) (code : BitVec 4) : State :=
  let off := ((s.regs q).W f.rs).toNat
  match (s.regs q).check f.ss off bs.length .swrite with
  | .error e => (s.modSeq q fun x => { x with wait := .none }).enter q (e.entry (s.regs q).pc)
  | .ok a =>
    if Desc.window ((s.regs q).seg f.ss) then
      let s0 := s
      let (s, cs) := (blockPieces a bs).foldl (fun (p : State × List ChunkW) x =>
        let r := p.1.mkReq q x.1 x.2.length (.chunkW x.2 true)
        (p.1.addReq (galOf q) r, p.2 ++ [{ rid := r.rid, len := x.2.length, pushed := x.2.length, outcome := none }])) (s0, [])
      s.modSeq q fun x => { x with wait := .long { kind := .dgst, v := true, f := f, loaded := true,
                                                   table := [code.setWidth 8], chunks := cs } }
    else match s.memWrite q a bs with
      | .bus s c =>
        (s.modSeq q fun x => { x with wait := .none }).enter q
          ({ vec := 3, cause := c, seg := f.ss, eaddr := BitVec.ofNat 16 off : Exn }.entry (s.regs q).pc)
      | .ok s _ => s.dgRetire q f code none
      | .wait s => (s.store a bs).dgRetire q f code none
      | .retry => (s.store a bs).dgRetire q f code none

/-! ### State images (R289) -/

/-- Pads or cuts to n bytes. -/
def padTo (n : Nat) (bs : List Byte) : List Byte := (bs ++ List.replicate n 0).take n

/-- The 256-byte image. -/
def Session.image (x : Session) : List Byte :=
  let head := [x.alg.setWidth 8, ofB 8 x.hmac, if x.hmac then x.slot else 0, BitVec.ofNat 8 x.buf.length, 0, 0, 0, 0]
    ++ leBytes 8 x.count ++ padTo 64 x.h ++ padTo 128 x.buf
  head ++ leBytes 4 (crcOf crc32c head).toNat ++ List.replicate 44 0

/-- The session of an image, or none where a field breaks a limit or the check word disagrees. -/
def Session.ofImage (img : List Byte) (c : Half) : Option Session :=
  let alg := imgNat img 0 1
  let fl := imgNat img 1 1
  let plen := imgNat img 3 1
  let count := imgNat img 8 8
  let x : Session :=
    { opened := true, ctx := c, hmac := fl = 1, alg := BitVec.ofNat 2 alg, slot := BitVec.ofNat 8 (imgNat img 2 1)
      count := count, h := [], started := true, buf := (img.drop 0x50).take plen }
  let x := { x with h := (img.drop 0x10).take x.chain }
  let ok := 1 ≤ alg && alg ≤ 3 && fl ≤ 1 && (fl = 1 || imgNat img 2 1 = 0) && plen < x.block && imgNat img 4 4 = 0
    && count % x.block = 0 && count < 2 ^ 61
    && imgNat img (0x10 + x.chain) (64 - x.chain) = 0 && imgNat img (0x50 + plen) (128 - plen) = 0
    && imgNat img 0xD0 4 = (crcOf crc32c (img.take 0xD0)).toNat && imgNat img 0xD4 44 = 0
  if ok then some x else none

/-! ### Transactions end -/

/-- After a session's own transaction: it waits for its next one, and the engine goes on. -/
def State.dgNext (s : State) (i : Fin 256) : State := (s.dgWant i).dgKick

/-- A transaction of session i ended OK with the chip's data. -/
def State.dgOk (s : State) (t : DgTxn) (i : Fin 256) (data : List Byte) : State :=
  let x := s.ses i
  if !x.opened then { s with dg := { s.dg with holder := none } } else
  match t with
  | .init | .restore =>
    let s := s.modSes i fun x => { x with started := true }
    match s.dgWork i with
    | some w => s.dgStart i w
    | none => s.dgKick
  | .block => (s.modSes i fun x => { x with count := x.count + x.block }).dgNext i
  | .readout =>
    let s := s.modSes i fun x => { x with h := data.take x.chain }
    match s.sesOp i with
    | some (q, .save, f) =>
      if x.buf.length < x.block then
        let s := s.modSes i fun x => { x with user := none }
        let s := { s with dg := { s.dg with waiting := s.dg.waiting.filter (· != i) } }
        (s.dgDeliver q f (s.ses i).image 0).dgKick
      else s.dgYielded i
    | _ => s.dgYielded i
  | .finish =>
    match s.sesOp i with
    | some (q, .final, f) => ((s.closeSession i).dgDeliver q f (data.take x.result) 0).dgKick
    | _ => s.dgKick
  | .fincmp => { s with dg := { s.dg with cmpWait := some i } }
  | .abort => ({ s with dg := { s.dg with holder := none } } : State).dgEnd i x.err none

/-- A transaction ended ERROR, or was given up: KEY for INIT and RESTORE, else PORT, sticky in the session (R286). -/
def State.dgErr (s : State) (t : DgTxn) (i : Fin 256) : State :=
  let code := match t with
    | .init | .restore => dgKEY
    | _ => dgPORT
  let s := { s with dg := { s.dg with holder := none, waiting := s.dg.waiting.filter (· != i) } }
  if !(s.ses i).opened then s else
  if t = .abort ∧ (s.ses i).user.isNone then s else
  let s := s.modSes i fun x => { x with err := if x.err = 0 then code else x.err }
  s.dgEnd i (s.ses i).err none

/-- DIGEST_TRANSACTION_DONE (R284). -/
def State.digestDone (s : State) (err : Bool) (data : List Byte) : State :=
  match s.dg.txn with
  | none => s
  | some (t, i) =>
    let s := { s with dg := { s.dg with txn := none } }
    if err then s.dgErr t i else s.dgOk t i data

def execDigestTransactionDone (err : Bool) (data : BitVec 512) (s : State) : Out State :=
  .next (s.digestDone err (leBytes 64 data.toNat))

/-- Which transaction, for the record: the rows of R284 counted from 0 (R390). -/
def DgTxn.index : DgTxn → Nat
  | .init => 0
  | .block => 1
  | .readout => 2
  | .restore => 3
  | .finish => 4
  | .fincmp => 5
  | .abort => 6

/-- DGTIMEOUT: the record, and DGSTAT.TMO. -/
def State.dgTimeoutRecord (s : State) (i : Fin 256) (t : DgTxn) : State :=
  let s := { s with dg := { s.dg with tmo := satInc8 s.dg.tmo } }
  s.record 0x23 (recSrc 7 0 0xFF) .staged (leBytes 2 i.val ++ [BitVec.ofNat 8 t.index])

/-- DIGEST_TRANSACTION_TIMEOUT: the engine issues ABORT, and the session takes ERR PORT (R284). -/
def State.digestTimeout (s : State) : State :=
  match s.dg.txn with
  | none => s
  | some (t, i) =>
    let s := s.dgTimeoutRecord i t
    if t = .abort then
      let s := { s with dg := { s.dg with txn := none } }
      s.dgErr .abort i
    else
      let s := { s with dg := { s.dg with txn := some (.abort, i), waiting := s.dg.waiting.filter (· != i) } }
      if (s.ses i).opened then s.modSes i fun x => { x with err := if x.err = 0 then dgPORT else x.err } else s

def execDigestTransactionTimeout (s : State) : Out State := .next s.digestTimeout

/-- DGEQ and DGGL of the sequencer that compares (R290). -/
def State.dgCond (s : State) (i : Fin 256) (eq gl : Bool) : State :=
  match (s.ses i).user with
  | none => s
  | some q => s.modSeq q fun x => { x with cond := { x.cond with dgeq := eq, dggl := gl } }

/-- COMPARATOR_ANSWER: the pair sampled with dg_cmp_vld (R290). -/
def State.comparatorAnswer (s : State) (p : CmpPair) : State :=
  match s.dg.cmpWait with
  | none => s
  | some i =>
    let glitch := p.eq == p.eqn
    let s := { s with dg := { s.dg with cmpWait := none, glitch := if glitch then satInc8 s.dg.glitch else s.dg.glitch } }
    let s := if glitch then
        s.record 0x22 (recSrc 7 0 0xFF) .important ([ofB 8 p.eq ||| (ofB 8 p.eqn <<< 1), 0] ++ leBytes 2 i.val)
      else s
    let s := s.dgCond i (p.eq && !p.eqn) glitch
    (s.dgEnd i (if glitch then dgGLITCH else 0) (some (p.eq && !p.eqn))).dgKick

def execComparatorAnswer (p : CmpPair) (s : State) : Out State := .next (s.comparatorAnswer p)

/-- COMPARATOR_TIMEOUT: treated as a glitch, recorded as DGTIMEOUT (R290). -/
def State.comparatorTimeout (s : State) : State :=
  match s.dg.cmpWait with
  | none => s
  | some i =>
    let s := { s with dg := { s.dg with cmpWait := none } }
    let s := s.dgTimeoutRecord i .fincmp
    ((s.dgCond i false true).dgEnd i dgGLITCH (some false)).dgKick

def execComparatorTimeout (s : State) : Out State := .next s.comparatorTimeout

/-! ### DGST.C (R199, R286) -/

/-- An operation that completes at once. -/
def dgDone (q : SeqId) (f : FormS) (code : BitVec 4) (t : Option Bool) (s : State) : Res :=
  .done (s.modRegs q fun r => r.dgOutcome f code t)

/-- Program mode may open an HMAC session only with a slot below 64 whose DGKEYMASK bit is 1 (R286). -/
def State.keyDenied (s : State) (q : SeqId) (slot : Nat) : Bool :=
  !(s.regs q).priv && !(if slot < 32 then bit s.dg.mask0 slot else slot < 64 && bit s.dg.mask1 (slot - 32))

/-- Session numbers free for a context; one whose transaction has not ended is not free yet. -/
def State.sesFree (s : State) : List (Fin 256) :=
  (List.finRange 256).filter fun i => i.val < 252 && !(s.ses i).opened && !(s.dg.txn.any fun t => t.2 = i)

/-- Installs a new session for the bound context, in a free place. -/
def State.openSession (s : State) (x : Session) : Option State :=
  match s.choose s.sesFree with
  | none => none
  | some (i, s) => some (s.modSes i fun _ => x)

def dgOpenBody (q : SeqId) (f : FormS) (s : State) : Res :=
  let r := s.regs q
  let wd := r.W f.rd
  let hmac := bit wd 12
  let slot : Byte := wd.extractLsb' 16 8
  if r.ctxid = 0xFFFF then dgDone q f dgNOSESS none s
  else if (s.sessionOf r.ctxid).isSome then dgDone q f dgISOPEN none s
  else if hmac && s.keyDenied q slot.toNat then dgDone q f dgDENIED none s
  else match s.openSession { opened := true, ctx := r.ctxid, hmac := hmac, alg := wd.extractLsb' 8 2
                             slot := if hmac then slot else 0 } with
    | none => dgDone q f dgNOSESS none s
    | some s => dgDone q f 0 none s

/-- The operation waits for transactions of session i. -/
def dgHold (q : SeqId) (i : Fin 256) (op : DgOp) (f : FormS) (s : State) : Res :=
  let s := s.modSes i fun x => { x with user := some q }
  .wait ((s.modSeq q fun x => { x with wait := .digest op f }).dgWant i)

/-- The operand is not there yet: the operation keeps its place and holds BOUND off (R176). -/
def dgLater (q : SeqId) (op : DgOp) (f : FormS) (s : State) : Res :=
  .wait (s.modSeq q fun x => { x with wait := .operand op f })

/-- The destination of FINAL and SAVE: n bytes at Ss:Ws, checked as one access of kind swrite (R199, R289). -/
def dgDest (q : SeqId) (op : DgOp) (f : FormS) (n : Nat) (s : State) (cont : State → Res) : Res :=
  let off := ((s.regs q).W f.rs).toNat
  match s.streamCheck q f.ss .any off n .swrite with
  | .error e => .exn s e
  | .ok a =>
    if Desc.window ((s.regs q).seg f.ss) then cont s else
    match s.memReach q a n with
    | .ok s _ => cont s
    | .bus s c => .exn s { vec := 3, cause := c, seg := f.ss, eaddr := BitVec.ofNat 16 off }
    | .wait s => dgLater q op f s
    | .retry => .retry

/-- The source of CHECK and LOAD: n bytes at Ss:Ws, checked as one access of kind sread. -/
def dgSource (q : SeqId) (op : DgOp) (f : FormS) (n : Nat) (s : State) (cont : State → List Byte → Res) : Res :=
  let off := ((s.regs q).W f.rs).toNat
  match s.source q f.ss .any 0 off n (off + n) with
  | .err s e => .exn (s.freeChunks q) e
  | .stall s => dgLater q op f s
  | .retry => .retry
  | .ok s bs _ =>
    let s := s.freeChunks q
    if bs.length < n then
      .exn s { vec := 3, cause := 0x21, seg := f.ss, eaddr := BitVec.ofNat 16 ((off + bs.length) / 0x10000) }
    else cont s bs

/-- FINAL and CHECK need an open session without a sticky code and without a partial block (R286). -/
def dgWithSession (q : SeqId) (f : FormS) (s : State) (cont : Fin 256 → Res) : Res :=
  match s.sessionOf (s.regs q).ctxid with
  | none => dgDone q f dgNOSESS none s
  | some i =>
    let x := s.ses i
    if x.err ≠ 0 then dgDone q f x.err none (s.closeSession i)
    else if x.buf.length % x.block ≠ 0 then dgDone q f dgPARTIAL none (s.closeSession i)
    else cont i

def dgFinalBody (q : SeqId) (f : FormS) (s : State) : Res :=
  dgWithSession q f s fun i => dgDest q .final f (s.ses i).result s fun s => dgHold q i .final f s

/-- CHECK that fails before the comparison leaves T := 0: only a valid "equal" sets it (R199). -/
def dgCheckBody (q : SeqId) (f : FormS) (s : State) : Res :=
  match s.sessionOf (s.regs q).ctxid with
  | none => dgDone q f dgNOSESS (some false) s
  | some i =>
    let x := s.ses i
    if x.err ≠ 0 then dgDone q f x.err (some false) (s.closeSession i)
    else if x.buf.length % x.block ≠ 0 then dgDone q f dgPARTIAL (some false) (s.closeSession i)
    else dgSource q .check f x.result s fun s bs => dgHold q i .check f (s.modSes i fun x => { x with reference := bs })

/-- SAVE: a session that is in the engine, has a whole block buffered, or was never in the engine first runs its
transactions; else its image is written at once (R289). -/
def dgSaveBody (q : SeqId) (f : FormS) (s : State) : Res :=
  match s.sessionOf (s.regs q).ctxid with
  | none => dgDone q f dgNOSESS none s
  | some i =>
    let x := s.ses i
    if x.hmac && !(s.regs q).priv then dgDone q f dgDENIED none s
    else if x.err ≠ 0 then dgDone q f x.err none s
    else dgDest q .save f 256 s fun s =>
      if s.dg.holder != some i && x.started && x.buf.length < x.block && !(Desc.window ((s.regs q).seg f.ss)) then
        match (s.regs q).check f.ss ((s.regs q).W f.rs).toNat 256 .swrite with
        | .error e => .exn s e
        | .ok a =>
          match s.memWrite q a x.image with
          | .ok s _ => dgDone q f 0 none s
          | .bus s c => .exn s { vec := 3, cause := c, seg := f.ss, eaddr := BitVec.ofNat 16 ((s.regs q).W f.rs).toNat }
          | .wait s => dgLater q .save f s
          | .retry => .retry
      else if s.dg.holder != some i && x.started && x.buf.length < x.block then .wait (s.dgDeliver q f x.image 0)
      else dgHold q i .save f s

def dgLoadBody (q : SeqId) (f : FormS) (s : State) : Res :=
  let r := s.regs q
  if r.ctxid = 0xFFFF then dgDone q f dgNOSESS none s
  else if (s.sessionOf r.ctxid).isSome then dgDone q f dgISOPEN none s
  else dgSource q .load f 256 s fun s img =>
    match Session.ofImage img r.ctxid with
    | none => dgDone q f dgIMAGE none s
    | some x =>
      if x.hmac && !r.priv then dgDone q f dgDENIED none s
      else match s.openSession x with
        | none => dgDone q f dgNOSESS none s
        | some s => dgDone q f 0 none s

/-- ABORT: a session in the digest engine ends with an ABORT transaction; another closes at once (R284, R285). -/
def dgAbortBody (q : SeqId) (f : FormS) (s : State) : Res :=
  match s.sessionOf (s.regs q).ctxid with
  | none => dgDone q f 0 none s
  | some i =>
    if s.dg.holder = some i then
      let s := s.modSes i fun x => { x with user := some q, err := 0 }
      let s := { s with dg := { s.dg with txn := some (.abort, i), waiting := s.dg.waiting.filter (· != i) } }
      .wait (s.modSeq q fun x => { x with wait := .digest .abort f })
    else dgDone q f 0 none (s.closeSession i)

/-- The operation code of each DGST.C command. -/
def DgOp.code : DgOp → Nat
  | .open => 1
  | .final => 2
  | .check => 3
  | .save => 4
  | .load => 5
  | .abort => 6

/-- DGST.C: Wd names the operation; an undefined control word is ILLEGAL 0x07 (R199). A command that is not the one Wd
names leaves the state unchanged (log 13). -/
def dgstC (q : SeqId) (op : DgOp) (f : FormS) (body : State → Res) (s : State) : Res :=
  let wd := (s.regs q).W f.rd
  let code := wd.toNat % 256
  let alg := wd.toNat / 256 % 16
  if wd.extractLsb' 24 8 ≠ 0 ∨ wd.extractLsb' 13 3 ≠ 0 ∨ code = 0 ∨ 6 < code ∨ (code = 1 ∧ (alg = 0 ∨ 3 < alg)) then
    .exn s (illegal (s.regs q).pc 0x07)
  else if code ≠ op.code then .hold s
  else body s

/-- Registers and flags of DGST.C (R172, R213). -/
def dgstTouch (f : FormS) (mem t : Bool) : Touch :=
  ((tW f.rd).or (if mem then tW f.rs else tNone)).or (tSt (if t then 0x21 else 0x01))

/-- A DGST.C command: an operation that waits for its operand goes on at its next command, without a new dispatch; its words
have been debited. -/
def dgRun (i : Instr) (q : SeqId) (t : Touch) (op : DgOp) (f : FormS) (body : State → Res) (s : State) : State :=
  if (s.seq q).wait == .operand op f then
    if s.alive q && (s.seq q).issues then
      let u := s.modSeq q fun x => { x with wait := .none }
      u.finish q (u.regs q).pc ((body u).spent q {} u)
    else s
  else runInstr i q t (dgstC q op f body) s

def execDgstOpen (q : SeqId) (f : FormS) (s : State) : Out State :=
  .next (dgRun (.dgstOpen q f) q (dgstTouch f false false) .open f (dgOpenBody q f) s)
def execDgstFinal (q : SeqId) (f : FormS) (s : State) : Out State :=
  .next (dgRun (.dgstFinal q f) q (dgstTouch f true false) .final f (dgFinalBody q f) s)
def execDgstCheck (q : SeqId) (f : FormS) (s : State) : Out State :=
  .next (dgRun (.dgstCheck q f) q (dgstTouch f true true) .check f (dgCheckBody q f) s)
def execDgstSave (q : SeqId) (f : FormS) (s : State) : Out State :=
  .next (dgRun (.dgstSave q f) q (dgstTouch f true false) .save f (dgSaveBody q f) s)
def execDgstLoad (q : SeqId) (f : FormS) (s : State) : Out State :=
  .next (dgRun (.dgstLoad q f) q (dgstTouch f true false) .load f (dgLoadBody q f) s)
def execDgstAbort (q : SeqId) (f : FormS) (s : State) : Out State :=
  .next (dgRun (.dgstAbort q f) q (dgstTouch f false false) .abort f (dgAbortBody q f) s)

/-! ### DGST.P (R287) -/

/-- What a push comes to. -/
inductive Push where
  | taken (s : State)
  | lost (s : State)
  | full (s : State)

/-- Bytes of a session's block that is on its way to the digest engine: COUNT does not hold them yet. -/
def State.dgTransit (s : State) (i : Fin 256) : Nat := if s.dg.txn = some (.block, i) then (s.ses i).block else 0

/-- A step's bytes enter the session of the bound context whole, or wait for room, or are discarded. -/
def State.push (s : State) (q : SeqId) (bs : List Byte) : Push :=
  match s.sessionOf (s.regs q).ctxid with
  | none => .lost s
  | some i =>
    let x := s.ses i
    if x.err ≠ 0 then .lost s
    else if 2 ^ 61 ≤ x.count + s.dgTransit i + x.buf.length + bs.length then .lost (s.modSes i fun x => { x with err := dgCOUNT })
    else if x.block + 32 < x.buf.length + bs.length then .full (s.dgWant i)
    else .taken ((s.modSes i fun x => { x with buf := x.buf ++ bs }).dgWant i)

end Sys2Proof.Machine
end

