-- ==== Sys2Proof/Machine/Stream.lean ====
section
/-!
DEFINITION. The long instructions (R172 to R185, R192 to R201): how one begins, its steps, suspension and completion.
-/

namespace Sys2Proof.Machine

open Sys2Proof

/-! ### Registers of a long instruction (R172, R173) -/

def Regs.ws (r : Regs) (f : FormS) : Nat := (r.W f.rs).toNat
def Regs.wd (r : Regs) (f : FormS) : Nat := (r.W f.rd).toNat
def Regs.wx (r : Regs) (f : FormS) : Nat := (r.W f.rx).toNat
/-- Wp = W[(RX[2:0] + 1) mod 8]. -/
def Regs.wp (r : Regs) (f : FormS) : Word := r.W (f.rx + 1)

/-- Progress by n bytes: Wx falls, Ws and Wd rise where the instruction moves them (R175). -/
def Regs.adv (r : Regs) (f : FormS) (s d : Bool) (n : Nat) : Regs :=
  let ws := r.W f.rs
  let wd := r.W f.rd
  let wx := r.W f.rx
  let r := if s then r.setW f.rs (ws + BitVec.ofNat 32 n) else r
  let r := if d then r.setW f.rd (wd + BitVec.ofNat 32 n) else r
  r.setW f.rx (wx - BitVec.ofNat 32 n)

/-- Ws, Wd, Wx and Wp. -/
def Regs.progOf (r : Regs) (f : FormS) : Vector Word 4 := #v[r.W f.rs, r.W f.rd, r.W f.rx, r.W (f.rx + 1)]
def Regs.withProg (r : Regs) (f : FormS) (p : Vector Word 4) : Regs :=
  (((r.setW f.rs p[0]).setW f.rd p[1]).setW f.rx p[2]).setW (f.rx + 1) p[3]

/-- Number of the record size of a latched FILT descriptor. -/
def LongOp.rsize (l : LongOp) : Nat := imgNat l.table 0 2

/-- What the steps still have to cover: bytes, candidate positions, windows, or bytes of whole records. -/
def LongOp.remaining (l : LongOp) (r : Regs) : Nat :=
  let wx := r.wx l.f
  match l.kind with
  | .matchF => wx + 1 - l.table.length
  | .hashs => wx - 3
  | .filt => wx / l.rsize * l.rsize - l.rest.length
  | _ => wx - l.ahead

/-! ### Completion -/

/-- Flags of CMPS (R201): CMP of the first unequal pair, or the flags of equality. -/
def cmpsFlags : Option (Byte × Byte) → Flags
  | none => { z := some true, c := some false, n := some false, v := some false }
  | some (a, b) => (aluSub a b false).withP.fl

/-- The flags at completion; RES clears (R177). -/
def LongOp.complete (l : LongOp) (r : Regs) : Regs :=
  let fl : Flags := match l.kind with
    | .scan | .matchS | .matchF => { t := some l.differ.isSome }
    | .crcs => { z := some (lowBits (r.W l.f.rd) r.crc.width == 0) }
    | .filt => { z := some ((r.wp l.f).extractLsb' 16 16 == 0) }
    | .cmps => cmpsFlags l.differ
    | .dgst => { z := some (!l.lost) }
    | _ => {}
  let r := r.flags fl
  { r with st := putBit r.st stRES false }

/-- The results with L = 0 (R178). -/
def LongOp.empty (l : LongOp) (r : Regs) : Regs :=
  match l.kind with
  | .copy | .crcs | .hashs | .dgst | .fills => { r with st := putBit r.st stRES false }
  | _ => l.complete r

/-! ### Suspension (R176) -/

/-- PC stays, RES := 1, chunk lines are released and chunk writes left to the sump. -/
def State.suspend (s : State) (q : SeqId) : State :=
  (s.abandon q).modSeq q fun x => { x with
    wait := .none, regs := { x.regs with st := putBit x.regs.st stRES true } }

/-- BOUND ends the steps with RES := 1, before the first of them too (R176, R177). A fresh FILT that has not yet latched its
descriptor has cleared Wp[31:16], which its resume will not (R198). -/
def State.leaveLong (s : State) (q : SeqId) (l : LongOp) : State :=
  let fresh := l.kind == .filt && !l.loaded && !bit (s.regs q).st stRES
  (if fresh then s.modRegs q fun r => r.setW (l.f.rx + 1) (r.wp l.f &&& 0xFFFF) else s).suspend q

/-- A step raises a fault: RES := 1 and the entry (R177, R179). -/
def State.stepFault (s : State) (q : SeqId) (e : Exn) : State :=
  let s := s.suspend q
  s.enter q (e.entry (s.regs q).pc)

/-- The instruction completes: its flags, then the next instruction, or the BUSERR of a LONG chunk (R184). -/
def State.longDone (s : State) (q : SeqId) (l : LongOp) : State :=
  let s := (s.freeChunks q).modSeq q fun x => { x with wait := .none, regs := l.complete x.regs }
  let pc := (s.regs q).pc
  match l.longAt with
  | none => s.modSeq q fun x => x.retire (pc + 4)
  | some (seg, gr) =>
    let s := s.modSeq q fun x => { x with mic := x.mic.pop, ra := { x.ra with shadow := none } }
    s.enter q { vec := 3, ecause := seg.setWidth 16 <<< 8 ||| 0x21, eaddr := gr, framePc := pc + 4, ipc := pc + 4, kind := .fault }

/-- A stall in reading an operand: for window data, or for a bank of scratch (R202). -/
def LongOp.starve (l : LongOp) (r : Regs) (n : BitVec 3) : LongOp := { l with starved := Desc.window (r.seg n) }

/-! ### The table an instruction latches (R193, R195, R196, R197) -/

/-- What preparing comes to. -/
inductive Prep where
  | ok (s : State) (l : LongOp)
  | err (s : State) (e : Exn)
  | stall (s : State) (l : LongOp)
  | retry

/-- Latches n bytes at an offset of Sd. -/
def latch (q : SeqId) (l : LongOp) (role : Role) (off n : Nat) (s : State) : Prep :=
  match s.source q l.f.sd role 1 off n (off + n) with
  | .err s e => .err s e
  | .stall s => .stall s (l.starve (s.regs q) l.f.sd)
  | .retry => .retry
  | .ok s bs long =>
    let s := s.consumeChunks q 1 (2 ^ 52)
    if bs.length < n then
      .err s { vec := 3, cause := 0x21, seg := l.f.sd, eaddr := BitVec.ofNat 16 ((off + bs.length) / 0x10000) }
    else .ok s { l with loaded := true, starved := false, table := bs, longAt := l.longAt.or (long.map fun g => (l.f.sd, g)) }

/-- The limits of a FILT descriptor (R197). -/
def filtOk (d : List Byte) : Bool :=
  let rsize := imgNat d 0 2
  let flen := imgNat d 4 1
  1 ≤ rsize && rsize ≤ 4096 && 1 ≤ flen && flen ≤ 8 && imgNat d 2 2 + flen ≤ rsize && imgNat d 5 1 ≤ 7
    && imgNat d 6 1 < 4 && imgNat d 7 1 = 0 && imgNat d 0x18 8 = 0

/-- The HASHS table's check (R196): the alignment stands between the rights and the limit (R135). -/
def hashsCheck (q : SeqId) (l : LongOp) (s : State) : Except Exn Nat :=
  let off := (s.regs q).wd l.f
  let b := (s.regs q).wp l.f &&& 15
  let odd : Except Exn Nat := .error { vec := 2, cause := 0x10, seg := l.f.sd, eaddr := BitVec.ofNat 16 off }
  match s.streamCheck q l.f.sd .scratch off (2 * 2 ^ b.toNat) .swrite with
  | .error e => if off % 2 = 1 ∧ e.cause = 0x30 then odd else .error e
  | .ok a => if off % 2 = 1 then odd else .ok a

/-- COPY between overlapping windows is refused before its first step (R185). -/
def copyOverlap (r : Regs) (f : FormS) : Bool :=
  let a := r.seg f.ss
  let b := r.seg f.sd
  let es := Desc.first a + r.ws f
  let ed := Desc.first b + r.wd f
  Desc.window a && Desc.window b && decide (es < ed + r.wx f) && decide (ed < es + r.wx f)

/-- Reads the class, pattern or descriptor, and makes the checks before the first step. -/
def prepare (q : SeqId) (l : LongOp) (s : State) : Prep :=
  let r := s.regs q
  match l.kind with
  | .scan => latch q l .scratch (r.wd l.f) 32 s
  | .matchF => latch q l .any (r.wd l.f) (r.wp l.f &&& 63).toNat s
  | .filt =>
    match latch q l .scratch (r.wp l.f &&& 0xFFFF).toNat 32 s with
    | .ok s l =>
      if !filtOk l.table then .err s (illegal r.pc 0x07)
      else if bit r.st stRES then .ok s l
      else .ok (s.modRegs q fun r => r.setW (l.f.rx + 1) (r.wp l.f &&& 0xFFFF)) l
    | p => p
  | .hashs =>
    match hashsCheck q l s with
    | .error e => .err s e
    | .ok _ => .ok s { l with loaded := true }
  | .copy =>
    if copyOverlap r l.f then
      .err s { vec := 4, cause := 0x31, seg := l.f.sd, eaddr := BitVec.ofNat 16 (r.wd l.f / 0x10000) }
    else .ok s { l with loaded := true }
  | _ => .ok s { l with loaded := true }

/-! ### Beginning (R177, R178) -/

/-- The checks of Wp, made also with L = 0 (R178, R195, R196). -/
def wpBad (l : LongOp) (r : Regs) : Bool :=
  let wp := r.wp l.f
  match l.kind with
  | .matchF => wp.toNat == 0 || decide (32 < wp.toNat)
  | .hashs => decide (wp.toNat < 8) || decide (15 < wp.toNat)
  | _ => false

/-- A long instruction begins or resumes. It stays in progress until its steps are done. -/
def longStart (q : SeqId) (kind : LongKind) (v : Bool) (f : FormS) (s : State) : Res :=
  let r := s.regs q
  let l : LongOp := { kind := kind, v := v, f := f, base := r.wd f }
  if wpBad l r then .exn s (illegal r.pc 0x07)
  else if r.wx f = 0 then
    let clear := kind = .filt ∧ !bit r.st stRES
    let s := if clear then s.modRegs q fun r => r.setW (f.rx + 1) (r.wp f &&& 0xFFFF) else s
    .done (s.modRegs q l.empty)
  else match prepare q l s with
    | .err s e => .exn (s.abandon q) e
    | .retry => .retry
    | .stall s l => .wait (s.modSeq q fun x => { x with wait := .long l, cond := { x.cond with sstall := true } })
    | .ok s l =>
      if l.remaining (s.regs q) = 0 then .done (s.modRegs q l.complete)
      else .wait (s.modSeq q fun x => { x with wait := .long l, cond := { x.cond with sstall := false } })

/-- A stream word whose row lists no variant is ILLEGAL 0x02 with V = 1 (R172). -/
def noVariant (q : SeqId) (v : Bool) (body : State → Res) (s : State) : Res :=
  if v then .exn s (illegal (s.regs q).pc 0x02) else body s

/-- Registers and flags that a long instruction uses (R172, R213). -/
def longTouch (kind : LongKind) (f : FormS) : Touch :=
  let ws := if kind = .fills then tNone else tW f.rs
  let wd := if kind = .dgst then tNone else tW f.rd
  let wp := match kind with
    | .matchF | .hashs | .filt | .fills => tW (f.rx + 1)
    | _ => tNone
  let fl := match kind with
    | .scan | .matchS | .matchF => tSt 0x20
    | .crcs | .filt | .dgst => tSt 0x01
    | .cmps => tSt 0x1F
    | _ => tNone
  (((ws.or wd).or (tW f.rx)).or wp).or fl

def execCopy (q : SeqId) (v : Bool) (f : FormS) (s : State) : Out State :=
  .next (runInstr (.copy q v f) q (longTouch .copy f) (noVariant q v (longStart q .copy v f)) s)
def execScan (q : SeqId) (v : Bool) (f : FormS) (s : State) : Out State :=
  .next (runInstr (.scan q v f) q (longTouch .scan f) (longStart q .scan v f) s)
def execCrcs (q : SeqId) (v : Bool) (f : FormS) (s : State) : Out State :=
  .next (runInstr (.crcs q v f) q (longTouch .crcs f) (noVariant q v (longStart q .crcs v f)) s)
def execMatchS (q : SeqId) (f : FormS) (s : State) : Out State :=
  .next (runInstr (.matchS q f) q (longTouch .matchS f) (longStart q .matchS false f) s)
def execMatchF (q : SeqId) (f : FormS) (s : State) : Out State :=
  .next (runInstr (.matchF q f) q (longTouch .matchF f) (longStart q .matchF true f) s)
def execHashs (q : SeqId) (v : Bool) (f : FormS) (s : State) : Out State :=
  .next (runInstr (.hashs q v f) q (longTouch .hashs f) (noVariant q v (longStart q .hashs v f)) s)
def execFilt (q : SeqId) (v : Bool) (f : FormS) (s : State) : Out State :=
  .next (runInstr (.filt q v f) q (longTouch .filt f) (noVariant q v (longStart q .filt v f)) s)
def execDgstP (q : SeqId) (f : FormS) (s : State) : Out State :=
  .next (runInstr (.dgstP q f) q (longTouch .dgst f) (longStart q .dgst false f) s)
def execFills (q : SeqId) (v : Bool) (f : FormS) (s : State) : Out State :=
  .next (runInstr (.fills q v f) q (longTouch .fills f) (longStart q .fills v f) s)
def execCmps (q : SeqId) (v : Bool) (f : FormS) (s : State) : Out State :=
  .next (runInstr (.cmps q v f) q (longTouch .cmps f) (noVariant q v (longStart q .cmps v f)) s)

/-! ### Steps (R175) -/

/-- What a step comes to: more steps to do, the end of the instruction, a stall, a fault, or RETRY. -/
inductive StepRes where
  | more (s : State) (l : LongOp)
  | last (s : State) (l : LongOp)
  | stall (s : State) (l : LongOp)
  | err (s : State) (e : Exn)
  | retry

/-- Reads n source bytes at Ss:(Ws + at), and notes a LONG chunk. -/
def stepSource (q : SeqId) (l : LongOp) (n skip : Nat) (s : State) (cont : State → LongOp → List Byte → StepRes) : StepRes :=
  let r := s.regs q
  match s.source q l.f.ss .any 0 (r.ws l.f + skip) n (r.ws l.f + r.wx l.f) with
  | .err s e => .err s e
  | .stall s => .stall s (l.starve r l.f.ss)
  | .retry => .retry
  | .ok s bs long => cont s { l with starved := false, longAt := l.longAt.or (long.map fun g => (l.f.ss, g)) } bs

/-- Reads n bytes of the second operand at Sd:Wd. -/
def stepSecond (q : SeqId) (l : LongOp) (n : Nat) (s : State) (cont : State → LongOp → List Byte → StepRes) : StepRes :=
  let r := s.regs q
  match s.source q l.f.sd .any 1 (r.wd l.f) n (r.wd l.f + r.wx l.f) with
  | .err s e => .err s e
  | .stall s => .stall s (l.starve r l.f.sd)
  | .retry => .retry
  | .ok s bs long => cont s { l with longAt := l.longAt.or (long.map fun g => (l.f.sd, g)) } bs

/-- Writes a step's bytes at Sd:(Wd + ahead), checked at address a; progress is the registers', or waits for the chunk's
answer where Sd is a window (R183). -/
def stepSink (q : SeqId) (l : LongOp) (a : Nat) (bs : List Byte) (src : Bool) (s : State) : StepRes :=
  let r := s.regs q
  match s.sink q l l.f.sd (r.wd l.f + l.ahead) a bs (a + (r.wx l.f - l.ahead)) with
  | .err s e => .err s e
  | .stall s l => .stall s l
  | .retry => .retry
  | .ok s l =>
    if Desc.window ((s.regs q).seg l.f.sd) then .more s { l with ahead := l.ahead + bs.length }
    else .more (s.modRegs q fun r => r.adv l.f src true bs.length) l

/-- COPY (R192): with scratch operands d bytes apart, d below the step's size, the first d bytes repeat. -/
def copyStep (q : SeqId) (l : LongOp) (s : State) : StepRes :=
  let r := s.regs q
  let n := min 32 (l.remaining r)
  match s.streamCheck q l.f.ss .any (r.ws l.f + l.ahead) n .sread, s.streamCheck q l.f.sd .any (r.wd l.f + l.ahead) n .swrite with
  | .error e, _ => .err s e
  | _, .error e => .err s e
  | .ok es, .ok ed =>
    stepSource q l n l.ahead s fun s l bs =>
      let d := ed - es
      let out := if es < ed ∧ d < bs.length then (List.range bs.length).map fun j => bs.getD (j % d) 0 else bs
      stepSink q l ed out true s

/-- FILLS (R200): byte i of the pattern counts from Wd where the instruction began or resumed. -/
def fillsStep (q : SeqId) (l : LongOp) (s : State) : StepRes :=
  let r := s.regs q
  let n := min 32 (l.remaining r)
  let i0 := r.wd l.f + l.ahead + 2 ^ 32 - l.base
  let out := (List.range n).map fun j => (r.wp l.f).extractLsb' (if l.v then 8 * ((i0 + j) % 4) else 0) 8
  match s.streamCheck q l.f.sd .any (r.wd l.f + l.ahead) n .swrite with
  | .error e => .err s e
  | .ok a => stepSink q l a out false s

/-- Class bit of a byte (R193). -/
def classBit (table : List Byte) (x : Byte) : Bool := bit (table.getD (x.toNat / 8) 0) (x.toNat % 8)

/-- Position of the first element that meets p, else the length. -/
def firstIdx {α : Type} (p : α → Bool) : List α → Nat
  | [] => 0
  | x :: xs => if p x then 0 else firstIdx p xs + 1

/-- SCAN (R193). -/
def scanStep (q : SeqId) (l : LongOp) (s : State) : StepRes :=
  stepSource q l (min 32 (l.remaining (s.regs q))) 0 s fun s l bs =>
    let j := firstIdx (fun x => classBit l.table x != l.v) bs
    let s := s.modRegs q fun r => r.adv l.f true false j
    if j < bs.length then .last s { l with differ := some (0, 0) } else .more s l

/-- CRCS (R194). -/
def crcsStep (q : SeqId) (l : LongOp) (s : State) : StepRes :=
  stepSource q l (min 32 (l.remaining (s.regs q))) 0 s fun s l bs =>
    .more (s.modRegs q fun r => (r.setW l.f.rd (crcBytes r.crc (r.W l.f.rd) bs)).adv l.f true false bs.length) l

/-- DGST.P (R287): a push without room stalls. -/
def dgstStep (q : SeqId) (l : LongOp) (s : State) : StepRes :=
  stepSource q l (min 32 (l.remaining (s.regs q))) 0 s fun s l bs =>
    match s.push q bs with
    | .full s => .stall s l
    | .taken s => .more (s.modRegs q fun r => r.adv l.f true false bs.length) l
    | .lost s => .more (s.modRegs q fun r => r.adv l.f true false bs.length) { l with lost := true }

/-- MATCH (R195) and CMPS (R201). Under CT CMPS covers every byte. -/
def pairStep (q : SeqId) (l : LongOp) (s : State) : StepRes :=
  let r := s.regs q
  let n := min 32 (l.remaining r)
  match s.streamCheck q l.f.ss .any (r.ws l.f) n .sread, s.streamCheck q l.f.sd .any (r.wd l.f) n .sread with
  | .error e, _ => .err s e
  | _, .error e => .err s e
  | .ok _, .ok _ =>
    stepSource q l n 0 s fun s l xs => stepSecond q l n s fun s l ys =>
      let z := List.zip xs ys
      let j := firstIdx (fun p => p.1 != p.2) z
      let ct := l.kind = .cmps ∧ bit (s.regs q).st stCT
      let l := { l with differ := l.differ.or z[j]? }
      if j < z.length ∧ ¬ ct then .last (s.modRegs q fun r => r.adv l.f true true j) l
      else .more (s.modRegs q fun r => r.adv l.f true true z.length) l

/-- MATCH.F (R195): up to 32 candidate positions; the first whose bytes equal the pattern ends the search. -/
def matchFStep (q : SeqId) (l : LongOp) (s : State) : StepRes :=
  let k := l.table.length
  let n := min 32 (l.remaining (s.regs q))
  let off := (s.regs q).ws l.f
  stepSource q l (n + k - 1) 0 s fun s l bs =>
    let c := min n (bs.length + 1 - k)
    if c = 0 then .err s { vec := 3, cause := 0x21, seg := l.f.ss, eaddr := BitVec.ofNat 16 (off / 0x10000) } else
    let j := firstIdx (fun i => (bs.drop i).take k == l.table) (List.range c)
    let s := s.modRegs q fun r => r.adv l.f true false j
    if j < c then .last s { l with differ := some (0, 0) } else .more s l

/-- Writes several pieces, all or none: a piece that cannot be reached now ends the step before any byte is written. -/
def State.writeAll (s : State) (q : SeqId) (ps : List (Nat × List Byte)) : Acc Unit :=
  let reach := ps.foldl (fun (acc : Acc Unit) p => match acc with
    | .ok s _ => s.memReach q p.1 p.2.length
    | x => x) (.ok s ())
  match reach with
  | .ok s _ => .ok (ps.foldl (fun s p => match s.memWrite q p.1 p.2 with | .ok s _ => s | _ => s) s) ()
  | x => x

/-- The entries that c windows insert, in ascending order: each window is read as memory stands after the entries before it
(R196). `src` reads window j. -/
def hashPieces (b tea off : Nat) (src : Memory → Nat → List Byte) (m : Memory) (c : Nat) : List (Nat × List Byte) :=
  ((List.range c).foldl (fun (p : Memory × List (Nat × List Byte)) j =>
    let h := (ofLeBytes (src p.1 j) * 0x6F4A7C15) % 2 ^ 32 / 2 ^ (32 - b)
    let e := leBytes 2 (off + j)
    (p.1.writeBytes (tea + 2 * h) e, p.2 ++ [(tea + 2 * h, e)])) (m, [])).2

/-- HASHS (R196): up to 8 windows, written in ascending order. -/
def hashsStep (q : SeqId) (l : LongOp) (s : State) : StepRes :=
  let d := (s.regs q).seg l.f.ss
  let n := min 8 (l.remaining (s.regs q))
  let off := (s.regs q).ws l.f
  let b := ((s.regs q).wp l.f &&& 15).toNat
  match hashsCheck q l s with
  | .error e => .err s e
  | .ok tea =>
    stepSource q l (n + 3) 0 s fun s l bs =>
      let c := min n (bs.length - 3)
      if c = 0 then .err s { vec := 3, cause := 0x21, seg := l.f.ss, eaddr := BitVec.ofNat 16 (off / 0x10000) } else
      let src (m : Memory) (j : Nat) : List Byte :=
        if Desc.window d then (bs.drop j).take 4 else m.readBytes (Desc.first d + off + j) 4
      match s.writeAll q (hashPieces b tea off src s.mem c) with
      | .ok s _ => .more (s.modRegs q fun r => r.adv l.f true false c) l
      | .bus s e => .err s { vec := 3, cause := e, seg := l.f.sd, eaddr := BitVec.ofNat 16 ((s.regs q).wd l.f) }
      | .wait s => .stall s l
      | .retry => .retry

/-! ### FILT (R197, R198) -/

/-- The field value of a record. -/
def filtField (d rec_ : List Byte) : Nat :=
  let x := (rec_.drop (imgNat d 2 2)).take (imgNat d 4 1)
  ofLeBytes (if imgNat d 6 1 % 2 = 1 then x.reverse else x)

/-- Whether a record is selected (OP of R197). -/
def filtSelect (d rec_ : List Byte) : Bool :=
  let x := filtField d rec_
  let key := imgNat d 8 8
  let hi := imgNat d 16 8
  match imgNat d 5 1 with
  | 0 => x == key
  | 1 => x != key
  | 2 => decide (x < key)
  | 3 => decide (key ≤ x)
  | 4 => decide (key ≤ x) && decide (x ≤ hi)
  | 5 => !(decide (key ≤ x) && decide (x ≤ hi))
  | 6 => Nat.land x hi == key
  | _ => true

/-- Cuts the whole records of n bytes off the front: the records, and the bytes left. -/
def cutRecords (n : Nat) (bs : List Byte) : List (List Byte) × List Byte :=
  let k := bs.length / n
  ((List.range k).map fun i => (bs.drop (i * n)).take n, bs.drop (k * n))

/-- A step's records: what it selects and counts. -/
def filtStep (q : SeqId) (l : LongOp) (s : State) : StepRes :=
  let n := min 32 (l.remaining (s.regs q))
  stepSource q l n l.rest.length s fun s l bs =>
    let (recs, rest) := cutRecords l.rsize (l.rest ++ bs)
    let sel := recs.filter (filtSelect l.table)
    let out := if (imgNat l.table 6 1 / 2) % 2 = 1 then [] else sel.flatten
    let wd := (s.regs q).wd l.f
    let done (s : State) : StepRes :=
      .more (s.modRegs q fun r =>
        let wp := r.wp l.f
        let r := r.adv l.f true false (recs.length * l.rsize)
        let r := r.setW l.f.rd (BitVec.ofNat 32 (wd + out.length))
        r.setW (l.f.rx + 1) ((wp &&& 0xFFFF) ||| (((wp.extractLsb' 16 16) + BitVec.ofNat 16 sel.length).setWidth 32 <<< 16)))
        { l with rest := rest }
    if out.isEmpty then done s else
    match s.streamCheck q l.f.sd .scratch wd out.length .swrite with
    | .error e => .err s e
    | .ok a =>
      match s.writeAll q [(a, out)] with
      | .ok s _ => done s
      | .bus s e => .err s { vec := 3, cause := e, seg := l.f.sd, eaddr := BitVec.ofNat 16 wd }
      | .wait s => .stall s l
      | .retry => .retry

/-! ### STREAM_STEP -/

/-- One step of the instruction's kind. -/
def longStep (q : SeqId) (l : LongOp) (s : State) : StepRes :=
  match l.kind with
  | .copy => copyStep q l s
  | .scan => scanStep q l s
  | .crcs => crcsStep q l s
  | .matchS | .cmps => pairStep q l s
  | .matchF => matchFStep q l s
  | .hashs => hashsStep q l s
  | .filt => filtStep q l s
  | .dgst => dgstStep q l s
  | .fills => fillsStep q l s

/-- Debit class of a step: STRM, or STRMR where it writes nothing (R175, R49). -/
def LongKind.cls : LongKind → Nat
  | .copy | .fills | .hashs | .filt => 6
  | _ => 7

/-- Frees the chunk lines whose bytes the steps so far have consumed. -/
def State.consumed (s : State) (q : SeqId) (l : LongOp) : State :=
  let r := s.regs q
  let s := s.consumeChunks q 0 (Desc.first (r.seg l.f.ss) + r.ws l.f + l.ahead + l.rest.length)
  match l.kind with
  | .matchS | .cmps => s.consumeChunks q 1 (Desc.first (r.seg l.f.sd) + r.wd l.f)
  | _ => s

/-- The oldest chunk write was answered other than OK (R183). -/
def LongOp.chunkFailed (l : LongOp) : Bool :=
  match l.chunks with
  | c :: _ => match c.outcome with | some o => o != outOK | none => false
  | [] => false

/-- The BUSERR of such a chunk: progress stands at its start. -/
def LongOp.chunkExn (l : LongOp) (r : Regs) : Exn :=
  if l.kind = .dgst then { vec := 3, cause := 0x21, seg := l.f.ss, eaddr := BitVec.ofNat 16 (r.ws l.f / 0x10000) }
  else { vec := 3, cause := 0x21, seg := l.f.sd, eaddr := BitVec.ofNat 16 (r.wd l.f / 0x10000) }

/-- After a step: the instruction goes on, or completes once its chunk writes are answered. -/
def State.afterStep (s : State) (q : SeqId) (l : LongOp) : State :=
  let s := s.consumed q l
  if l.remaining (s.regs q) = 0 ∧ l.chunks.isEmpty then s.longDone q l
  else s.modSeq q fun x => { x with
    wait := .long l, ra := { x.ra with shadow := none }, cond := { x.cond with sstall := false, step := true } }

/-- The step of an instruction whose table is latched. -/
def State.doStep (s : State) (q : SeqId) (l : LongOp) : State :=
  if l.remaining (s.regs q) = 0 then
    if l.chunks.isEmpty then s.longDone q l else s
  else match longStep q l s with
    | .more s l => (s.cycle q l.kind.cls).afterStep q l
    | .last s l => (s.cycle q l.kind.cls).longDone q l
    | .stall s l => s.modSeq q fun x => { x with wait := .long l, cond := { x.cond with sstall := true, step := false } }
    | .err s e => s.stepFault q e
    | .retry => (s.suspend q).modSeq q fun x => { x with wait := .retry, cond := { x.cond with retry := true } }

/-- STREAM_STEP: BOUND suspends; else the table is latched if it is not, and one step runs. A DGST.C whose result is on
its way to a window completes when the write is answered. -/
def State.streamStep (s : State) (q : SeqId) : State :=
  let x := s.seq q
  if !s.alive q || !x.issues then s else
  match x.wait with
  | .long l =>
    if l.kind = .dgst ∧ l.v then
      if l.chunkFailed then ((s.abandon q).modSeq q fun x => { x with wait := .none }).enter q ((l.chunkExn x.regs).entry x.regs.pc)
      else if l.chunks.isEmpty then s.dgRetire q l.f ((l.table.headD 0).setWidth 4) none
      else s
    else if x.bound then s.leaveLong q l
    else if l.chunkFailed then s.stepFault q (l.chunkExn x.regs)
    else if l.loaded then s.doStep q l
    else match prepare q l s with
      | .err s e => ((s.abandon q).modSeq q fun x => { x with wait := .none }).enter q (e.entry x.regs.pc)
      | .retry => (s.abandon q).modSeq q fun x => { x with wait := .retry, cond := { x.cond with retry := true } }
      | .stall s l => s.modSeq q fun x => { x with wait := .long l }
      | .ok s l => s.doStep q l
  | _ => s

def execStreamStep (q : SeqId) (s : State) : Out State := .next (s.streamStep q)

/-- An answer to a chunk write: the registers advance past every chunk answered OK, oldest first (R183). -/
def LongOp.answered (l : LongOp) (r : Regs) : LongOp × Regs :=
  l.chunks.foldl (fun (p : LongOp × Regs) c =>
    if c.outcome = some outOK ∧ p.1.chunks.head? = some c then
      if l.kind = .dgst then ({ p.1 with chunks := p.1.chunks.tail }, p.2)
      else ({ p.1 with chunks := p.1.chunks.tail, ahead := p.1.ahead - c.len }, p.2.adv l.f (l.kind == .copy) true c.len)
    else p) (l, r)

end Sys2Proof.Machine
end

