-- ==== Sys2Proof/Machine/Transfer.lean ====
section
/-!
DEFINITION. FETCH, PUT and WAITT (R186 to R191), run-ahead lines that a FETCH binds (R206), and the media channel: issue,
credits, beats, responses, timeouts and the sump (R270 to R277).
-/

namespace Sys2Proof.Machine

open Sys2Proof

/-! ### Transfers of a context (R189, R190) -/

/-- The response code RETRACTED (R190). -/
def outRETRACTED : BitVec 3 := 4

/-- Records the outcome of one part of a transfer; a second response to it is none. -/
def State.partDone (s : State) (xid : Nat) (second : Bool) (code : BitVec 3) (len : Nat) : State :=
  { s with work := { s.work with xfers := s.work.xfers.map fun x =>
    if x.xid ≠ xid then x
    else if second then (if x.second.isSome then x else { x with second := some (code, len) })
    else if x.first.isSome then x else { x with first := some (code, len) } } }

/-- A transfer's status and delivered length once its parts are answered (R206). -/
def Xfer.result (x : Xfer) : Option (BitVec 3 × Nat) :=
  match x.first with
  | none => none
  | some (c, n) =>
    if !x.split then some (c, n)
    else match x.second with
      | none => none
      | some (c2, n2) => if c ≠ outOK then some (c, n) else some (c2, x.m + n2)

/-- WAITT completes: Wd := XFAIL, XFAIL := 0, Z (R191). -/
def State.finishWaitt (s : State) (q : SeqId) (rd : BitVec 5) : State :=
  let c := (s.regs q).ctxid
  let v := BitVec.ofNat 32 (s.ctxXfail c)
  let s := s.setCtxField c 0x10 4 0
  s.modRegs q fun r =>
    let r := (r.setW rd v).flags { z := some (v == 0) }
    { r with st := putBit r.st stRES false }

/-- The sequencer to which a context is bound. -/
def State.boundSeq (s : State) (c : Half) : Option SeqId := s.allSeqs.find? fun q => (s.regs q).ctxid == c && c != 0xFFFF

/-- TRANSFER_RETIRE: the context's oldest transfer retires once its responses have arrived (R189): XCNT, the first failure
in XFAIL, vector 25, and a WAITT whose hold ends. -/
def State.transferRetire (s : State) (c : Half) : State :=
  match s.work.xfers.find? fun x => x.ctx == c with
  | none => s
  | some x =>
    match x.result with
    | none => s
    | some (code, len) =>
      let s := { s with work := { s.work with xfers := s.work.xfers.filter fun y => y.xid ≠ x.xid } }
      let s := s.setCtxField c 0x14 1 (s.ctxXcnt c - 1)
      let bad := code ≠ outOK
      let s := if bad ∧ s.ctxXfail c = 0 then s.setCtxField c 0x10 4 (code.toNat * 2 ^ 24 + len % 2 ^ 24) else s
      match s.boundSeq c with
      | none => s
      | some q =>
        let held := !(s.seq q).bound
        let s := if bad then s.irq q 9 else s
        match (s.seq q).wait with
        | .waitt n rd =>
          if s.ctxXcnt c ≤ n ∧ held ∧ (s.seq q).issues then
            (s.finishWaitt q rd).modSeq q fun x => { x with wait := .none }.retire (x.regs.pc + 4)
          else s
        | _ => s

def execTransferRetire (ctx : Half) (s : State) : Out State := .next (s.transferRetire ctx)

/-! ### FETCH, PUT, WAITT -/

/-- The banks that a transfer targets: awake, or they are woken and the instruction holds (R261). -/
def State.banksReady (s : State) (g : GalId) (off n : Nat) : Option State :=
  let asleep := (banksOf off n).filter fun b => !(s.gal g).bankAwake b
  if asleep.isEmpty then none
  else some (s.modGal g fun x => { x with waking := asleep.foldl (fun m b => putBit m b.val true) x.waking })

/-- The line that a FETCH binds: held by the sequencer, of the same context, E and m (R206). -/
def State.fetchLine (s : State) (q : SeqId) (e m : Nat) : Option (Fin 16) :=
  (List.finRange 16).find? fun i =>
    let l := (s.gal (galOf q)).lines[i]
    l.busy && !l.chunk && l.bound.isNone && l.seq = q && l.ctx == (s.regs q).ctxid && l.e = e && l.m = m

/-- A line has bytes and status: it is delivered, or its part is read again (R206). -/
def State.resolveBound (s : State) (g : GalId) (i : Fin 16) : State :=
  let l := (s.gal g).lines[i]
  match l.bound, l.outcome with
  | some xid, some c =>
    if c = outOK ∧ l.dlen = l.m then
      let s := s.store l.dest (l.bytes.take l.m)
      (s.partDone xid false outOK l.m).modGal g fun x => { x with lines := x.lines.set i {} }
    else
      let r : MReq := { rid := (s.gal g).md.nextRid, addr := l.e, len := l.m, ctx := l.ctx
                        tenant := BitVec.ofNat 8 (s.ctxField l.ctx 6 1), seq := l.seq, purpose := .fetch xid false l.dest }
      (s.addReq g r).modGal g fun x => { x with lines := x.lines.set i {} }
  | _, _ => s

/-- A new transfer of the bound context (R189). -/
def State.newXfer (s : State) (q : SeqId) (xid len m : Nat) (isPut split : Bool) : State :=
  let c := (s.regs q).ctxid
  let x : Xfer := { xid := xid, ctx := c, gal := galOf q, len := len, m := m, isPut := isPut, first := none, second := none,
                    split := split }
  let s := { s with work := { s.work with xfers := s.work.xfers ++ [x], nextXid := max s.work.nextXid (xid + 1) } }
  s.setCtxField c 0x14 1 (s.ctxXcnt c + 1)

/-- A transfer slot is free: at most 64 outstanding (R186). -/
def State.slotFree (s : State) (c : Half) : Bool := decide (s.ctxXcnt c < 64)

/-- The instruction waits for the issue of its request. -/
def waitMedia (q : SeqId) (r : MReq) (s : State) : Res :=
  .wait ((s.addReq (galOf q) r).modSeq q fun x => { x with wait := .media r.rid })

/-- A FETCH or PUT retires without a request of its own. -/
def xferDone (q : SeqId) (s : State) : Res := .done (s.modRegs q fun r => { r with st := putBit r.st stRES false })

/-- Binds a line to transfer xid (R206); RAHIT and RADECL tell what it holds. -/
def State.bindLine (s : State) (q : SeqId) (i : Fin 16) (xid dest : Nat) : State :=
  let l := (s.gal (galOf q)).lines[i]
  let s := s.modGal (galOf q) fun x => { x with lines := x.lines.set i { l with bound := some xid, dest := dest } }
  s.modSeq q fun x => { x with
    ra := { x.ra with bound := satInc8 x.ra.bound }
    cond := { x.cond with rahit := !l.bytes.isEmpty, radecl := l.outcome = some outDECLINED } }

/-- FETCH after its checks: source address e, destination address d, length n (R186, R206). One with a part beyond its line
waits for that part's issue, and binds the line then: an abandoned wait has bound none (R187). -/
def fetchGo (q : SeqId) (v : Bool) (e d n : Nat) (s : State) : Res :=
  let m := min n 4096
  let xid := s.work.nextXid
  match if v then none else s.fetchLine q e m with
  | none =>
    waitMedia q (s.mkReq q e n (.fetch xid false d))
      { s with work := { s.work with nextXid := xid + 1 } }
  | some i =>
    if n ≤ m then
      if !s.slotFree (s.regs q).ctxid then .hold s else
      let s := (s.bindLine q i xid d).newXfer q xid n m false false
      xferDone q (s.resolveBound (galOf q) i)
    else
      waitMedia q (s.mkReq q (e + m) (n - m) (.fetch xid true (d + m)))
        { s with work := { s.work with nextXid := xid + 1 } }

def fetchBody (q : SeqId) (v : Bool) (f : FormS) (s : State) : Res :=
  let r := s.regs q
  let n := r.wx f
  if 0x100000 < n then .exn s (illegal r.pc 0x07)
  else if n = 0 then xferDone q s
  else match s.streamCheck q f.ss .window (r.ws f) n .sread with
    | .error e => .exn s e
    | .ok e =>
      match s.streamCheck q f.sd .own (r.wd f) n .swrite with
      | .error e => .exn s e
      | .ok d =>
        match s.banksReady (galOf q) (d % 0x100000) n with
        | some s => .hold s
        | none => fetchGo q v e d n s

def execFetch (q : SeqId) (v : Bool) (f : FormS) (s : State) : Out State :=
  .next (runInstr (.fetch q v f) q (((tW f.rs).or (tW f.rd)).or (tW f.rx)) (fetchBody q v f) s)

def putBody (q : SeqId) (f : FormS) (s : State) : Res :=
  let r := s.regs q
  let n := r.wx f
  if 0x100000 < n then .exn s (illegal r.pc 0x07)
  else if n = 0 then xferDone q s
  else match s.streamCheck q f.ss .own (r.ws f) n .sread with
    | .error e => .exn s e
    | .ok a =>
      match s.streamCheck q f.sd .window (r.wd f) n .swrite with
      | .error e => .exn s e
      | .ok d =>
        match s.banksReady (galOf q) (a % 0x100000) n with
        | some s => .hold s
        | none =>
          let xid := s.work.nextXid
          waitMedia q (s.mkReq q d n (.put xid a)) { s with work := { s.work with nextXid := xid + 1 } }

def execPut (q : SeqId) (v : Bool) (f : FormS) (s : State) : Out State :=
  .next (runInstr (.put q v f) q (((tW f.rs).or (tW f.rd)).or (tW f.rx)) (noVariant q v (putBody q f)) s)

def waittBody (q : SeqId) (f : FormRI) (s : State) : Res :=
  let n := f.imm.toNat
  if f.minor ≠ 0 then .exn s (illegal (s.regs q).pc 0x02)
  else if 64 ≤ n then .exn s (illegal (s.regs q).pc 0x07)
  else if s.ctxXcnt (s.regs q).ctxid ≤ n then .done (s.finishWaitt q f.rd)
  else .wait (s.modSeq q fun x => { x with wait := .waitt n f.rd })

/-- WAITT (R191). -/
def execWaitt (q : SeqId) (f : FormRI) (s : State) : Out State :=
  .next (runInstr (.waitt q f) q ((tW f.rd).or (tSt 0x01)) (waittBody q f) s)

/-! ### Issue (R271) -/

/-- The request is that of an instruction that waits for it. -/
def State.waitsFor (s : State) (r : MReq) : Bool := (s.seq r.seq).wait == .media r.rid

/-- Tokens a write reserves (R56). -/
def State.writeResv (s : State) (r : MReq) : Nat :=
  if r.purpose.isWrite && s.pow.holdEn then s.pow.wrtok * pages r.len else 0

/-- A request as it issues: the second part of a FETCH whose line was released while it waited is the read in full (R206). -/
def State.asIssued (s : State) (r : MReq) : MReq :=
  match r.purpose with
  | .fetch xid true d =>
    if s.waitsFor r && (s.fetchLine r.seq (r.addr - 4096) 4096).isNone then
      { r with addr := r.addr - 4096, len := r.len + 4096, purpose := .fetch xid false (d - 4096) }
    else r
  | _ => r

/-- The resources of a request's own: read-data credits, its reservation, a transfer slot (R186, R271). -/
def State.ownResources (s : State) (g : GalId) (r : MReq) : Bool :=
  (r.purpose.isWrite || decide (pages r.len ≤ (s.gal g).md.rd))
    && (!(r.purpose.isWrite && s.pow.holdEn) || s.holdFits (s.writeResv r))
    && (!s.waitsFor r || s.slotFree r.ctx)

/-- The request that is issued next: SPEC only while no other waits; requesters in the rotor's order, each in its own
order within the kind (R271, log 14). -/
def State.pickReq (s : State) (g : GalId) : Option MReq :=
  let m := (s.gal g).md
  let plain := m.waiting.filter fun r => !r.purpose.isSpec
  let pool := if plain.isEmpty then m.waiting else plain
  let heads := (List.range 8).filterMap fun k =>
    pool.find? fun r => (idxOf r.seq).val = (m.rotor.val + k) % 8
  (heads.map s.asIssued).find? (s.ownResources g)

/-- The transfer of a FETCH or PUT begins with its request; a FETCH in two parts binds its line (R189, R206). -/
def State.startXfer (s : State) (r : MReq) : State :=
  match r.purpose with
  | .put xid _ => s.newXfer r.seq xid r.len 0 true false
  | .fetch xid false _ => s.newXfer r.seq xid r.len 4096 false false
  | .fetch xid true d =>
    match s.fetchLine r.seq (r.addr - 4096) 4096 with
    | none => s
    | some i =>
      ((s.bindLine r.seq i xid (d - 4096)).newXfer r.seq xid (r.len + 4096) 4096 false true).resolveBound (galOf r.seq) i
  | _ => s

/-- MEDIA_REQUEST_ISSUE: the request takes its tag, credits and reservation, and its FETCH or PUT retires (R186). -/
def State.issueReq (s : State) (g : GalId) (tag : Fin 1024) : State :=
  let m := (s.gal g).md
  if !s.logicOn g || m.rq = 0 || m.tags.any (fun t => t.tag = tag) then s else
  match s.pickReq g with
  | none => s
  | some r =>
    let w := r.purpose.isWrite
    let held := s.waitsFor r
    let rd := if w then 0 else pages r.len
    let t : Tag := { tag := tag, no := m.issues, req := r, delivered := 0, sent := 0, sump := false, orphan := false, age := 0
                     resv := s.writeResv r, noResv := !(w && s.pow.holdEn), sourceUe := false }
    let s := s.modMd g fun m => { m with
      waiting := m.waiting.filter fun x => x.rid ≠ r.rid
      tags := m.tags ++ [t], issues := m.issues + 1, rq := m.rq - 1, rd := m.rd - rd
      rotor := Fin.ofNat 8 ((idxOf r.seq).val + 1), lastReq := some (tag, r) }
    let s := (((s.led g 1 1).led g 5 rd).led g 14 1).countReserved t.resv
    let s := if r.purpose.isSpec then s.modSeq r.seq fun x => { x with ra := { x.ra with issued := satInc8 x.ra.issued } } else s
    if !held then s else
    let s := s.startXfer r
    s.modSeq r.seq fun x =>
      ({ x with wait := .none, regs := { x.regs with st := putBit x.regs.st stRES false } } : Seq).retire (x.regs.pc + 4)

def execMediaRequestIssue (g : GalId) (tag : Fin 1024) (s : State) : Out State := .next (s.issueReq g tag)

/-! ### Credits (R272) -/

/-- CREDIT_GRANT: a count at its maximum gives the excess back at once and sets CROVF. -/
def State.creditGrant (s : State) (g : GalId) (k : CreditKind) : State :=
  if !s.present g then s else
  let m := (s.gal g).md
  let (held, top, ix) : Nat × Nat × Fin 26 := match k with
    | .request => (m.rq, 255, 0)
    | .readData => (m.rd, 4095, 4)
    | .writeData => (m.wd, 4095, 8)
  let s := s.led g ix 1
  if top ≤ held then (s.led g (ix + 1) 1).modMd g fun m => { m with crovf := true }
  else s.modMd g fun m => match k with
    | .request => { m with rq := m.rq + 1 }
    | .readData => { m with rd := m.rd + 1 }
    | .writeData => { m with wd := m.wd + 1 }

def execCreditGrant (g : GalId) (k : CreditKind) (s : State) : Out State := .next (s.creditGrant g k)

/-! ### Beats (R274) -/

/-- Changes an outstanding tag. -/
def State.modTag (s : State) (g : GalId) (tag : Fin 1024) (f : Tag → Tag) : State :=
  s.modMd g fun m => { m with tags := m.tags.map fun t => if t.tag = tag then f t else t }

/-- Bytes of a read go to their destination: scratch, or a staging line. -/
def State.deliver (s : State) (g : GalId) (t : Tag) (bs : List Byte) : State :=
  match t.req.purpose with
  | .fetch _ _ dest => s.store (dest + t.delivered) bs
  | .chunkR i | .spec i =>
    s.modGal g fun x => { x with lines := x.lines.set i { x.lines[i] with bytes := x.lines[i].bytes ++ bs } }
  | _ => s

/-- READ_BEAT: a beat of NB bytes. -/
def State.readBeat (s : State) (g : GalId) (tag : Fin 1024) (nb : Nat) (data : List Byte) : State :=
  if !s.present g then s else
  match (s.gal g).md.tags.find? fun t => t.tag = tag && !t.req.purpose.isWrite with
  | none => s.modMd g fun m => { m with beat := true }
  | some t =>
    let bs := data.take nb
    let keep := bs.take (t.req.len - t.delivered)
    let s := s.modMd g fun m => { m with lastBeat := some (tag, bs) }
    let s := s.modTag g tag fun t => { t with delivered := t.delivered + nb }
    if t.sump then s.modMd g fun m => { m with sumpBytes := m.sumpBytes + nb }
    else s.deliver g t keep

def execReadBeat (g : GalId) (tag : Fin 1024) (nb : BitVec 6) (data : BitVec 256) (s : State) : Out State :=
  .next (s.readBeat g tag nb.toNat (leBytes 32 data.toNat))

/-- Source bytes of a PUT beat as they stand; those of an uncorrectable codeword are sent as 0 (R188). -/
def State.putBytes (s : State) (a n : Nat) : List Byte :=
  (List.range n).map fun i => if s.ecc.ue.contains ((a + i) / 8 * 8) then 0 else s.mem.get (a + i)

/-- The bytes of the next write beat, or none while they have not been pushed (R274). -/
def State.beatBytes (s : State) (t : Tag) : Option (List Byte) :=
  let n := min 16 (t.req.len - t.sent)
  match t.req.purpose with
  | .put _ a => some (s.putBytes (a + t.sent) n)
  | .chunkW d done =>
    let bs := (d.drop t.sent).take n
    if bs.length = n then some bs else if done then some (padTo n bs) else none
  | _ => none

/-- The write whose beats go next: the first issued of those with beats to send, answered or not (R274). -/
def Media.nextWrite (m : Media) : Option Tag :=
  ((m.unsent ++ m.tags).filter fun t => t.req.purpose.isWrite && decide (t.sent < t.req.len)).foldl (fun b t =>
    match b with
    | none => some t
    | some u => if t.no < u.no then some t else b) none

/-- Changes the request that issued under a number, outstanding or answered with beats to send; one with none left is gone. -/
def State.modIssued (s : State) (g : GalId) (no : Nat) (f : Tag → Tag) : State :=
  let upd (t : Tag) : Tag := if t.no = no then f t else t
  s.modMd g fun m => { m with tags := m.tags.map upd, unsent := (m.unsent.map upd).filter fun t => decide (t.sent < t.req.len) }

/-- WRITE_BEAT: the next beat of the oldest write that has beats to send, when a write-data credit is held; buffer memory
holds what was sent to it (log 61). -/
def State.writeBeat (s : State) (g : GalId) : State :=
  let m := (s.gal g).md
  if !s.present g || m.wd = 0 then s else
  match m.nextWrite with
  | none => s
  | some t =>
    match s.beatBytes t with
    | none => s
    | some bs =>
      let a := match t.req.purpose with
        | .put _ a => a + t.sent
        | _ => 0
      let ue := match t.req.purpose with
        | .put _ _ => s.poisoned a bs.length
        | _ => false
      let s := match t.req.purpose with
        | .put _ _ => s.eccRead g a bs.length
        | _ => s
      let s := s.modIssued g t.no fun t => { t with sent := t.sent + bs.length, sourceUe := t.sourceUe || ue }
      let s := if regionOf t.req.addr = 1 then { s with mem := s.mem.writeBytes (t.req.addr + t.sent) bs } else s
      (s.modMd g fun m => { m with wd := m.wd - 1, lastBeat := some (t.tag, bs) }).led g 9 1

def execWriteBeat (g : GalId) (s : State) : Out State := .next (s.writeBeat g)

/-! ### Outcomes (R275) -/

/-- An answer to a chunk write reaches the long instruction that waits for it (R183). -/
def State.chunkAnswered (s : State) (q : SeqId) (rid : Nat) (code : BitVec 3) : State :=
  match (s.seq q).wait with
  | .long l =>
    let note (c : ChunkW) : ChunkW := if c.rid = rid then { c with outcome := some code } else c
    let (l, r) := ({ l with chunks := l.chunks.map note } : LongOp).answered (s.regs q)
    s.modSeq q fun x => { x with wait := .long l, regs := r }
  | _ =>
    match (s.seq q).mic.long with
    | none => s
    | some l =>
      let note (c : ChunkW) : ChunkW := if c.rid = rid then { c with outcome := some code } else c
      let r0 := (s.regs q).withProg l.f (s.seq q).mic.prog
      let (l', r) := ({ l with chunks := l.chunks.map note } : LongOp).answered r0
      s.modSeq q fun x => { x with mic := { x.mic with long := some l', prog := r.progOf l.f } }

/-- The response word of a chunk reaches microcode that has a stream operation in its datapath (R278). -/
def State.pushRsp (s : State) (t : Tag) (code : BitVec 3) : State :=
  let word : Half := BitVec.ofNat 16 (t.tag.val + code.toNat * 1024)
  match t.req.purpose with
  | .fetch _ _ _ | .put _ _ | .spec _ => s
  | .chunkR _ | .chunkW _ _ =>
    if (s.seq t.req.seq).mic.long.isSome then
      s.modSeq t.req.seq fun x => { x with mic := { x.mic with rsp := x.mic.rsp ++ [word] } }
    else s

/-- The outcome of a request that is not sunk reaches its requester. -/
def State.resolve (s : State) (g : GalId) (t : Tag) (code : BitVec 3) (len : Nat) : State :=
  let setLine (i : Fin 16) (s : State) : State :=
    s.modGal g fun x => { x with lines := x.lines.set i { x.lines[i] with outcome := some code, dlen := len } }
  match t.req.purpose with
  | .fetch xid second _ => s.partDone xid second code len
  | .put xid _ => s.partDone xid false (if t.sourceUe then outERROR else code) len
  | .chunkR i => setLine i s
  | .spec i => (setLine i s).resolveBound g i
  | .chunkW _ _ => s.chunkAnswered t.req.seq t.req.rid code

/-- The resolution table: outcome code, and the MDERR bits DECLNS, BADST, DLEN it sets, and whether it writes MDPROTO. -/
structure Resolution where
  code : BitVec 3
  declns : Bool := false
  badst : Bool := false
  dlen : Bool := false
  proto : Bool := false
  deriving DecidableEq, Repr

def resolution (t : Tag) (st : Nat) (dlen : Nat) : Resolution :=
  let w := t.req.purpose.isWrite
  if 3 ≤ st then { code := outERROR, badst := true }
  else if st = 2 then
    if t.req.purpose.isSpec && t.delivered = 0 then { code := outDECLINED } else { code := outERROR, declns := true }
  else if !w && t.delivered ≠ dlen then { code := outERROR, dlen := true, proto := true }
  else if st = 1 then { code := outERROR }
  else if dlen = t.req.len then { code := outOK }
  else if w then { code := outERROR, dlen := true }
  else if dlen < t.req.len then { code := outSHORT }
  else { code := outLONG }

/-- MDERR (R275). -/
def Media.mderr (m : Media) : Word :=
  ofB 32 m.badtag ||| (ofB 32 m.beat <<< 1) ||| (ofB 32 m.dlenErr <<< 2) ||| (ofB 32 m.badst <<< 3) ||| (ofB 32 m.declns <<< 4)
    ||| (ofB 32 m.tmoErr <<< 5) ||| (ofB 32 m.crovf <<< 6)

/-- An MDPROTO record (R385). -/
def State.mdproto (s : State) (g : GalId) (tag : Fin 1024) (dlen : Nat) : State :=
  s.record 0x21 (recSrc 1 g.val 0xFF) .staged
    (leBytes 4 (s.gal g).md.mderr.toNat ++ leBytes 2 tag.val ++ leBytes 4 dlen)

/-- MEDIA_RESPONSE. -/
def State.mediaResponse (s : State) (g : GalId) (tag : Fin 1024) (st dlen : Nat) : State :=
  if !s.present g then s else
  match (s.gal g).md.tags.find? fun t => t.tag = tag with
  | none => (s.modMd g fun m => { m with badtag := true }).mdproto g tag dlen
  | some t =>
    let x := resolution t st dlen
    let s0 := s
    let s := s.modMd g fun m => { m with
      tags := m.tags.filter fun u => u.tag ≠ tag
      unsent := if t.req.purpose.isWrite && decide (t.sent < t.req.len) then m.unsent ++ [t] else m.unsent
      declns := m.declns || x.declns, badst := m.badst || x.badst, dlenErr := m.dlenErr || x.dlen }
    let s := (s.led g 15 1).countReleased s0
    let s := if x.proto then s.mdproto g tag dlen else s
    let s := if x.code = outDECLINED then s.modSeq t.req.seq fun y => { y with ra := { y.ra with decl := satInc8 y.ra.decl } } else s
    let s := if t.req.purpose.isWrite then s.releaseOverlap t.req.addr t.req.len else s
    let s := if t.req.purpose.isWrite && s.pd.active && !t.noResv then
        { s with pd := { s.pd with completed := s.pd.completed + 1 } } else s
    if t.sump then s.modMd g fun m => { m with sumpResp := Nat.min 65535 (m.sumpResp + 1) }
    else (s.pushRsp t x.code).resolve g t x.code (if t.req.purpose.isWrite then dlen else t.delivered)

def execMediaResponse (g : GalId) (tag : Fin 1024) (st : BitVec 2) (dlen : BitVec 21) (s : State) : Out State :=
  .next (s.mediaResponse g tag st.toNat dlen.toNat)

/-! ### Timeout and retraction (R273, R190) -/

/-- An MDTIMEOUT record (R385). -/
def State.mdTimeoutRecord (s : State) (g : GalId) (tag : Fin 1024) (r : MReq) (age : Nat) : State :=
  s.record 0x20 (recSrc 1 g.val 0xFF) .staged
    ([if r.purpose.isWrite then 2 else 1, 0] ++ leBytes 2 tag.val ++ leBytes 2 r.ctx.toNat
      ++ [r.seqn, 0] ++ leBytes 4 r.len ++ leBytes 8 r.addr ++ leBytes 2 (min 65535 age))

/-- A transfer of the MP times out: its tag is orphaned until a response comes (R273, R402). -/
def State.mpTimeout (s : State) (g : GalId) (write : Bool) (addr len : Nat) (tag : Fin 1024) : State :=
  let m := (s.gal g).md
  let r := s.mpReq g write addr len
  if m.tags.any (fun t => t.tag = tag) then s else
  let t : Tag := { tag := tag, no := m.issues, req := r, delivered := 0, sent := len, sump := true, orphan := true,
                   age := m.tmo.toNat, resv := 0, noResv := true, sourceUe := false }
  ((s.mpIssue g tag r).modMd g fun m => { m with tmoErr := true, tags := m.tags ++ [t] }).mdTimeoutRecord g tag r m.tmo.toNat

/-- MEDIA_TIMEOUT: a transfer whose gallery has started TMO ticks since its issue retires ERROR and orphans its tag. -/
def State.mediaTimeout (s : State) (g : GalId) (tag : Fin 1024) : State :=
  if !s.present g then s else
  match (s.gal g).md.tags.find? fun t => t.tag = tag with
  | none => s
  | some t =>
    if t.orphan || t.age < (s.gal g).md.tmo.toNat then s else
    let s := s.modMd g fun m => { m with tmoErr := true }
    let s := (s.modTag g tag fun t => { t with orphan := true, sump := true, resv := 0, noResv := true }).countReleased s
    let s := s.mdTimeoutRecord g tag t.req t.age
    if t.sump then s else (s.pushRsp t outERROR).resolve g t outERROR t.delivered

def execMediaTimeout (g : GalId) (tag : Fin 1024) (s : State) : Out State := .next (s.mediaTimeout g tag)

/-- Transfers of a gallery's channel that match end RETRACTED: issued ones go to the sump, waiting ones are withdrawn,
bound lines are freed (R190, R277). -/
def State.retract (s : State) (g : GalId) (p : MReq → Bool) : State :=
  let s0 := s
  let m := (s.gal g).md
  let live := m.tags.filter fun t => !t.sump && p t.req
  let s := s.each live fun s t => match t.req.purpose with
    | .fetch xid second _ => s.partDone xid second outRETRACTED t.delivered
    | .put xid _ => s.partDone xid false outRETRACTED t.sent
    | .chunkR _ | .spec _ | .chunkW _ _ => s
  let s := s.each (m.waiting.filter fun r => p r && !s.waitsFor r) fun s r => match r.purpose.xid with
    | some xid => s.partDone xid (match r.purpose with | .fetch _ b _ => b | _ => false) outRETRACTED 0
    | none => s
  let s := s.modMd g fun m => { m with
    waiting := m.waiting.filter fun r => !p r
    tags := m.tags.map fun t => if p t.req then { t with sump := true, resv := 0, noResv := true } else t }
  s.countReleased s0

/-- Bound lines of a gallery are freed and their parts retracted (R208, R190). -/
def State.retractLines (s : State) (g : GalId) (p : Line → Bool) : State :=
  s.each (List.finRange 16) fun s i =>
    let l := (s.gal g).lines[i]
    match l.bound with
    | some xid => if l.busy && p l then (s.partDone xid false outRETRACTED l.bytes.length).freeLine g i else s
    | none => s

end Sys2Proof.Machine
end

