-- ==== Sys2Proof/Machine/RunAhead.lean ====
section
/-!
DEFINITION. Run-ahead (R202 to R205, R207) and the age of staging lines (R208).
-/

namespace Sys2Proof.Machine

open Sys2Proof

/-- The sequencer waits in WAITT, or in a step stalled on window data (R202). -/
def State.raWaits (s : State) (q : SeqId) : Bool :=
  match (s.seq q).wait with
  | .waitt _ _ => true
  | .long l => (s.seq q).cond.sstall && l.starved
  | _ => false

/-- RUN_AHEAD_START: the shadow copy at the instruction after the waiting one. -/
def State.raStart (s : State) (q : SeqId) : State :=
  let x := s.seq q
  if !s.alive q || !x.issues || x.bound || !x.ra.en || x.ra.maxl = 0 || x.ra.shadow.isSome || !s.raWaits q then s else
  let h : Shadow := { b := x.regs.b, a := x.regs.a, st := x.regs.st.setWidth 6, pc := x.regs.pc + 4, count := 0 }
  s.modSeq q fun x => { x with ra := { x.ra with shadow := some h } }

def execRunAheadStart (q : SeqId) (s : State) : Out State := .next (s.raStart q)

/-- The registers that run-ahead executes on. -/
def Shadow.regs (h : Shadow) (r : Regs) : Regs := { r with b := h.b, a := h.a, st := putBits r.st 0 h.st, pc := h.pc }
/-- The shadow copy after an instruction. -/
def Shadow.take (h : Shadow) (r : Regs) (pc : Half) : Shadow :=
  { b := r.b, a := r.a, st := r.st.setWidth 6, pc := pc, count := h.count + 1 }

/-- A read of run-ahead: its check passes and it answers at once, without an error or a bank that is not awake. -/
def State.shadowRead (s : State) (q : SeqId) (r : Regs) (n : BitVec 3) (off size : Nat) (k : Kind) : Option (State × List Byte) :=
  match r.check n off size k with
  | .error _ => none
  | .ok a =>
    match s.memRead q a size with
    | .ok s bs => some (s, bs)
    | _ => none

/-- A load of run-ahead reads own-gallery scratch alone. -/
def State.shadowLoad (s : State) (q : SeqId) (r : Regs) (n : BitVec 3) (off size : Nat) : Option (State × List Byte) :=
  if Role.own.fits q (r.seg n) then s.shadowRead q r n off size .read else none

/-- What a shadow instruction does: it goes on with new registers and PC (and, for a FETCH, the state with its SPEC
read), or it ends run-ahead. -/
inductive ShadowRes where
  | on (s : State) (r : Regs) (pc : Half)
  | stop

/-- The view of a load of run-ahead. -/
def loadView : LoadKind → View
  | .b => .b
  | .h => .h
  | .w => .w
  | .a => .a

/-- Lines a sequencer holds for run-ahead: unbound ones count against MAXL. -/
def State.raLines (s : State) (q : SeqId) : Nat :=
  ((List.finRange 16).filter fun i =>
    let l := (s.gal (galOf q)).lines[i]
    l.busy && !l.chunk && l.bound.isNone && l.seq = q).length

/-- A shadow FETCH with V = 0 (R205): the checks of R186 on the shadow registers, then a line and a SPEC read, unless a line
the sequencer holds records the context, E and m. -/
def State.shadowFetch (s : State) (q : SeqId) (r : Regs) (f : FormS) : ShadowRes :=
  let n := r.wx f
  let role (n : BitVec 3) (k : Role) : Bool := k.fits q (r.seg n)
  if 0x100000 < n then .stop
  else if n = 0 then .on s r (r.pc + 4)
  else if !role f.ss .window || !role f.sd .own then .stop
  else match r.check f.ss (r.ws f) n .sread, r.check f.sd (r.wd f) n .swrite with
    | .ok e, .ok _ =>
      let m := min n 4096
      let g := galOf q
      let held := (List.finRange 16).any fun i =>
        let l := (s.gal g).lines[i]
        l.busy && !l.chunk && l.seq = q && l.ctx == r.ctxid && l.e = e && l.m = m
      if held then .on s r (r.pc + 4)
      else if (s.seq q).ra.maxl.toNat ≤ s.raLines q then .stop
      else match (List.finRange 16).find? fun i => !(s.gal g).lines[i].busy with
        | none => .stop
        | some i =>
          let line (x : Gal) : Line := { busy := true, ctx := r.ctxid, e := e, m := m, seq := q, born := x.md.nextRid }
          let s := s.modGal g fun x => { x with lines := x.lines.set i (line x) }
          .on (s.addReq g (s.mkReq q e m (.spec i))) r (r.pc + 4)
    | _, _ => .stop

/-- One permitted instruction on the shadow registers (R203). -/
def State.shadowRun (s : State) (q : SeqId) (r : Regs) (i : ShadowInstr) : ShadowRes :=
  let next (o : Option Regs) : ShadowRes := match o with
    | none => .stop
    | some r' => .on s r' (r.pc + 4)
  match i with
  | .pair w =>
    if w.msb && (pairCause w).isNone then
      .on s (runPair (shortOf (w.extractLsb' 16 15)) (shortOf (w.extractLsb' 1 15)) r) (r.pc + 4)
    else .stop
  | .movl f => next (movlRun f r)
  | .lea f => next (leaRun f r)
  | .wide op rd rs => next (some (wideRun op rd rs r))
  | .jmp t => .on s r t
  | .jcc minor t => .on s r (if r.jcc minor then t else r.pc + 4)
  | .loop rd imm =>
    let v := r.B rd - 1
    .on s (r.setB rd v) (if v = 0 then r.pc + 4 else r.pc + 4 + (imm.signExtend 16) * 4)
  | .load k f =>
    let v := loadView k
    match r.offset f v.size with
    | none => .stop
    | some (off, upd) =>
      match s.shadowLoad q r f.segn off.toNat v.size with
      | none => .stop
      | some (s, bs) => .on s ((r.updA f.rs upd).setView v f.rd (ofLeBytes bs)) (r.pc + 4)
  | .fetch nospec f => if nospec then .on s r (r.pc + 4) else s.shadowFetch q r f
  | .waitt => .on s r (r.pc + 4)
  | .other => .stop

/-- Run-ahead ends and its shadow is discarded (R204). -/
def State.raEnd (s : State) (q : SeqId) : State := s.modSeq q fun x => { x with ra := { x.ra with shadow := none } }

/-- What a shadow instruction touches, for the pending items of R213. -/
def shadowTouch : ShadowInstr → Touch
  | .pair w => (shortOf (w.extractLsb' 16 15)).touch.or (shortOf (w.extractLsb' 1 15)).touch
  | .movl f => movlTouch f
  | .lea f => if f.minor = 1 then tH f.rx else tNone
  | .wide op rd rs => wideTouch op rd rs
  | .jcc minor _ => tSt (jccMask minor)
  | .loop rd _ => tB rd
  | .load k f => lsTouch (loadView k) f
  | .fetch _ f => ((tW f.rs).or (tW f.rd)).or (tW f.rx)
  | _ => tNone

/-- The words of a permitted format-0 instruction: those of its real execution, in the ordinary classes (R202). What a FETCH or
WAITT that runs as a no-op takes is not stated. -/
def shadowWords (q : SeqId) : ShadowInstr → Words
  | .movl f => wordsOf (.movl q f)
  | .lea f => wordsOf (.lea q f)
  | .wide op rd rs => wordsOf (wideInstr q op rd rs)
  | .jmp t => wordsOf (.jmp q t)
  | .jcc minor t => wordsOf (.jcc q minor t)
  | .loop rd imm => wordsOf (.loop q rd imm)
  | .load .b f => wordsOf (.ldb q f)
  | .load .h f => wordsOf (.ldh q f)
  | .load .w f => wordsOf (.ldw q f)
  | .load .a f => wordsOf (.lda q f)
  | .fetch false f => wordsOf (.fetch q false f)
  | _ => wordsLoose

/-- The words that a shadow instruction issues (R92, R202). -/
def State.shadowCycles (s : State) (q : SeqId) (i : ShadowInstr) : State :=
  match i with
  | .pair _ => s.cycle q 1
  | i => s.routine q (shadowWords q i)

/-- SHADOW_INSTRUCTION: fetched through S0 under R135, then run on the shadow copy; after 256 of them, or BOUND, or
anything run-ahead may not do, run-ahead ends (R203, R204). -/
def State.shadowStep (s : State) (q : SeqId) (i : ShadowInstr) : State :=
  let x := s.seq q
  match x.ra.shadow with
  | none => s
  | some h =>
    if !s.alive q || !x.issues || x.bound || !s.raWaits q then s.raEnd q else
    if (shadowTouch i).meets x.pool then s else
    let r := h.regs x.regs
    match s.shadowRead q r 0 h.pc.toNat 4 .exec with
    | none => s.raEnd q
    | some (t, _) =>
      match t.shadowRun q r i with
      | .stop => s.raEnd q
      | .on t r pc =>
        let t := t.shadowCycles q i
        if 255 ≤ h.count then t.raEnd q
        else t.modSeq q fun x => { x with ra := { x.ra with shadow := some (h.take r pc) } }

def execShadowInstruction (q : SeqId) (i : ShadowInstr) (s : State) : Out State := .next (s.shadowStep q i)

/-- LINE_AGE_EXPIRY: an unbound line that has reached RACTL.AGE gallery ticks is released (R208). -/
def State.lineAge (s : State) (g : GalId) (i : Fin 16) : State :=
  let l := (s.gal g).lines[i]
  if s.logicOn g && l.busy && !l.chunk && l.bound.isNone && decide ((s.seq l.seq).ra.age.toNat ≤ l.age) then
    (s.freeLine g i).modSeq l.seq fun x => { x with ra := { x.ra with rel := satInc8 x.ra.rel } }
  else s

def execLineAgeExpiry (g : GalId) (line : Fin 16) (s : State) : Out State := .next (s.lineAge g line)

end Sys2Proof.Machine
end

