-- ==== Sys2Proof/Machine/Boundary.lean ====
section
/-!
DEFINITION. The causes served at an instruction boundary and their order (R244, R367, R404): the FP trap, the unbind
request, the debug halt, the tick yield, interrupts and the tick acknowledgement; and the budget's limits (R45, R46, R250).
-/

namespace Sys2Proof.Machine

open Sys2Proof

/-! ### Reaching the boundary -/

/-- The causes of BOUND in the order of R244. -/
inductive Cause where
  | fptd | unbind | dhalt | budx | irq | ticks
  deriving DecidableEq, Repr

/-- The first cause to serve at the boundary (R244); while stepping, only the first three are served (R367). -/
def Seq.firstCause (x : Seq) : Option Cause :=
  if x.fptd then some .fptd
  else if x.unbind.isSome then some .unbind
  else if x.haltNow then some .dhalt
  else if x.stepping then none
  else if x.bud.budx then some .budx
  else if x.irqNow then some .irq
  else if x.ticks then some .ticks
  else none

/-- The sequencer comes to its boundary for a cause of BOUND: FETCH, PUT and WAITT give way (R187, R191), a long instruction
suspends (R176), run-ahead ends (R204). None while it does not issue, while DGST.C holds BOUND off (R176), or while
WAITE, WAITE.T or HALT has not retired (R167, R170). The words of the service that follows issue (R403): those of an entry
from its map read on, and those of a switch, are counted there. -/
def State.toBoundary (s : State) (q : SeqId) (w : Words) : Option State :=
  let x := s.seq q
  let bare (s : State) : Option State := some ((s.routine q w).modSeq q fun x => { x with
    wait := .none, ra := { x.ra with shadow := none }, cond := { x.cond with retry := false } })
  if !s.alive q || !x.issues then none else
  match x.wait with
  | .none => bare (s.freeChunks q)
  | .retry => bare s
  | .waitt _ _ | .media _ => bare (s.abandon q)
  | .long l => if l.kind = .dgst ∧ l.v then none else bare (s.leaveLong q l)
  | .digest _ _ | .operand _ _ | .waite _ | .waiteT _ | .halt | .pool => none

/-- The words of a cause's service (R403): 6 cc for an acknowledged tick, 17 for a tick yield, whose last is the NAC YIELD word
(class NONE); the manual gives no figure for the words before an entry's EXC word or a switch; a halt issues none. -/
def Cause.words : Cause → Words
  | .ticks => { more := 6 }
  | .budx => { first := [0], more := 16 }
  | .fptd | .irq | .unbind => wordsLoose
  | .dhalt => {}

/-! ### FP trap -/

/-- FPTRAP_ENTRY (R231): vector 6 with the latched trap address; the frame PC is the instruction at the boundary. -/
def State.fptrap (s : State) (q : SeqId) : State :=
  let x := s.seq q
  s.enter q { vec := 6, ecause := 0x50, eaddr := x.exc.trapAddr, framePc := x.regs.pc, ipc := x.regs.pc, kind := .fault } false

/-- Serves a cause when it is the first one and the sequencer is at its boundary. Where the service stores the context or halts,
what is in flight lands first, and a trap that this sets is entered in its place, the cause staying pending (R214, R232). -/
def State.serve (s : State) (q : SeqId) (c : Cause) (lands : Bool) (f : State → State) : State :=
  if (s.seq q).firstCause = some c then
    match s.toBoundary q c.words with
    | none => s
    | some t => if lands && (t.landAll q |>.seq q).fptd then (t.landAll q).fptrap q else f t
  else s

def execFptrapEntry (q : SeqId) (s : State) : Out State := .next (s.serve q .fptd false fun s => s.fptrap q)

/-! ### The end of a squeeze (R349 steps 4 and 5) -/

/-- Contexts homed on g that the MP has still to move. -/
def State.toMove (s : State) (g : GalId) : List Half :=
  s.ctxListed.filter fun c => s.ctxHome c = g && !s.ctxFlag c 2 &&
    (s.ctxState c == ctxOPEN || s.ctxState c == ctxPARKED || s.ctxState c == ctxHOMING || s.ctxState c == ctxBOUND)

/-- The squeeze of g ends once its deadline has passed and every context homed there has been moved or left NOHOME: SQUEEZED,
and the reply with items completed, contexts moved, contexts left and items returned (R328, R349). -/
def State.squeezeCheck (s : State) (g : GalId) : State :=
  let x := s.gal g
  match x.squeeze with
  | none => s
  | some (m, completed, moved, left, returned) =>
    if x.gstate != .squeezing || x.deadleft != 0 || s.pd.active || s.eng.mpbusy || !(s.toMove g).isEmpty then s else
    let s := s.modGal g fun x => { x with gstate := .squeezed, squeeze := none }
    s.replyTo m mbOK 0 (leBytes 2 completed ++ leBytes 2 moved ++ leBytes 2 left ++ leBytes 2 returned)

/-! ### The unbind request (R404) -/

/-- The outstanding transfers of a context retire RETRACTED, their replies to the sump; its lines are released (R190, R208). -/
def State.retractCtx (s : State) (g : GalId) (c : Half) : State :=
  let s := s.retract g fun r => r.ctx == c
  let s := s.retractLines g fun l => l.ctx == c
  s.releaseLines g fun l => l.ctx == c

/-- An entry is freed (R335). -/
def State.freeCtx (s : State) (c : Half) : State :=
  ((s.setCtxState c ctxFREE).setCtxFlag c 0 false).setCtxFlag c 1 false

/-- The reply of CTX_CLOSE posts when STATE = FREE. -/
def State.closeReply (s : State) (c : Half) : State :=
  let s0 := s
  let s := { s with mp := { s.mp with closing := s.mp.closing.filter fun e => e.1 != c } }
  s.each (s0.mp.closing.filter fun e => e.1 == c) fun s e => s.reply e.2 mbOK

/-- Pre-emption for a squeeze (R349 step 3): the context is saved, in the 36 cc of a switch with no incoming one (R403), its item
held by the MP, its transfers retracted. -/
def State.preempt (s : State) (q : SeqId) : State :=
  let g := galOf q
  let c := (s.regs q).ctxid
  let s := s.retractCtx g c
  let (s, out) := (s.routine q { more := 36 }).switchOut q 3
  match out with
  | none => s
  | some it =>
    let s := { s with work := { s.work with heldItems := s.work.heldItems ++ [(it, g)] } }
    (s.modGal g fun x => { x with squeeze := x.squeeze.map fun (m, n, a, b, r) => (m, n - 1, a, b, r) }).squeezeCheck g

/-- CTX_CLOSE of a bound context (R335): unbound without a save, its item FAILED(KILLED), the entry freed. -/
def State.killBound (s : State) (q : SeqId) : State :=
  let g := galOf q
  let c := (s.regs q).ctxid
  let s := (s.landAll q).breakLock q
  let s := s.retractCtx g c
  let s := s.dropRunning q stFAILED 0x08
  let s := { s with work := { s.work with xfers := s.work.xfers.filter fun x => x.ctx != c } }
  let s := s.modSeq q fun x => { x with regs := { x.regs with st := putBit x.regs.st stPRIV true } }
  (((s.closeCtxSession c).freeCtx c).closeReply c).squeezeCheck g

/-- UNBIND_REQUEST: served second at a boundary (R244, R404). -/
def State.unbindNow (s : State) (q : SeqId) : State :=
  let why := (s.seq q).unbind
  let s := s.modSeq q fun x => { x with unbind := none, ticks := true }
  match why with
  | none => s
  | some .squeeze => s.preempt q
  | some .close => s.killBound q

def execUnbindRequest (q : SeqId) (s : State) : Out State := .next (s.serve q .unbind true fun s => s.unbindNow q)

/-! ### Debug halt (R364 to R369) -/

/-- A HALT packet (R382). -/
def State.haltPacket (s : State) (q : SeqId) : State :=
  let x := s.seq q
  s.seqPacket q 5 0x06 ([x.dbg.why.setWidth 8, x.dbg.bpu.setWidth 8] ++ leBytes 2 x.regs.pc.toNat ++ leBytes 2 x.mic.upc.toNat
    ++ [0, 0, 0, 0])

/-- The reply of a DBG_STEP whose sequencer has halted: the steps done, WHY, PC and UPC (R361, R367). -/
def State.stepReply (s : State) (q : SeqId) : State :=
  match s.mp.stepping.find? fun e => e.1 = q with
  | none => s
  | some (_, m, n) =>
    let x := s.seq q
    let s := { s with mp := { s.mp with stepping := s.mp.stepping.filter fun e => e.1 ≠ q } }
    let s := s.modSeq q fun x => { x with dbg := { x.dbg with steps := 0 } }
    s.reply m mbOK 0 (leBytes 2 (n - x.dbg.steps) ++ [x.dbg.why.setWidth 8, 0] ++ leBytes 2 x.regs.pc.toNat
      ++ leBytes 2 x.mic.upc.toNat)

/-- The sequencer halts (R364): operations in flight land, a lock breaks (R169), HALTED sets; a packet, the ropes that name
its gallery (R376), the reply of a step. -/
def State.haltSeq (s : State) (q : SeqId) : State :=
  let x := s.seq q
  let forced := x.dbg.defer && x.lock.isSome
  let s := (s.landAll q).breakLock q
  let s := s.modSeq q fun x => { x with
    dhalt := false, dbg := { x.dbg with halted := true, defer := false, forced := x.dbg.forced || forced } }
  let s := s.haltPacket q
  let s := s.fireRopes fun w => bit w (16 + (galOf q).val)
  s.stepReply q

/-- DEBUG_HALT. -/
def execDebugHalt (q : SeqId) (s : State) : Out State := .next (s.serve q .dhalt true fun s => s.haltSeq q)

/-- A deferred halt that 64 retired instructions have made forced (R368). -/
def Seq.forcedHalt (x : Seq) : Bool := x.dhalt && x.dbg.defer && x.lock.isSome && decide (64 ≤ x.dbg.defcnt.toNat)

/-- DEFERRED_HALT_FORCED: the lock breaks and FORCED sets. -/
def execDeferredHaltForced (q : SeqId) (s : State) : Out State :=
  .next (if (s.seq q).forcedHalt then s.serve q .dhalt true fun s => s.haltSeq q else s)

/-! ### The tick yield (R44, R45, R336) -/

/-- The sequencer parks until its next gallery tick: landings, the lock breaks (R166, R169); at the end of its quantum the
context is unbound and the prefetched item bound (R336). -/
def State.park (s : State) (q : SeqId) : State :=
  let s := (s.landAll q).breakLock q
  let x := s.seq q
  let s := if x.quantumUp && x.prefetch.isSome then s.switchTo q
    else if x.running.isSome then s.ctxPacket q 1 x.regs.ctxid else s
  s.modSeq q fun x => { x with run := .parked }

/-- TICK_YIELD. -/
def execTickYield (q : SeqId) (s : State) : Out State := .next (s.serve q .budx true fun s => s.park q)

/-- QUANTUM_EXPIRY (R336): the context has held its sequencer QUANTUM ticks and the prefetch slot is occupied. -/
def State.quantumExpiry (s : State) (q : SeqId) : State :=
  let x := s.seq q
  match x.running with
  | none => s
  | some it =>
    if (s.gal (galOf q)).quantum.toNat ≤ it.ticks ∧ x.prefetch.isSome then s.modSeq q fun x => { x with quantumUp := true } else s

def execQuantumExpiry (q : SeqId) (s : State) : Out State := .next (s.quantumExpiry q)

/-! ### Interrupts and ticks -/

/-- INTERRUPT_ENTRY (R242): the highest pending interrupt above ML, entered with its level as the new ML. -/
def State.interrupt (s : State) (q : SeqId) : State :=
  let x := s.seq q
  match x.exc.best x.regs.ml with
  | none => s
  | some i =>
    s.enter q { vec := 16 + i, ecause := 0, eaddr := 0, framePc := x.regs.pc, ipc := x.regs.pc,
                kind := .int (BitVec.ofNat 3 (x.exc.level i)) } false

def execInterruptEntry (q : SeqId) (s : State) : Out State := .next (s.serve q .irq false fun s => s.interrupt q)

/-- TICK_ACKNOWLEDGEMENT (R244, R250): the watchdog reloads; the service may switch to the prefetched item (R268). -/
def State.tickAck (s : State) (q : SeqId) (switch : Bool) : State :=
  let s := s.modSeq q fun x => { x with ticks := false, exc := { x.exc with wdcount := x.exc.wdperiod } }
  if !switch then s
  else if (s.seq q).running.isSome then s.switchTo q
  else s.idleBind q

def execTickAcknowledgement (q : SeqId) (switchTo : Bool) (s : State) : Out State :=
  .next (s.serve q .ticks switchTo fun s => s.tickAck q switchTo)

/-! ### Budget and watchdog -/

/-- Spends cycles: not parked, not halted, a context bound (R44). -/
def Seq.spends (x : Seq) : Bool := x.run == .active && !x.dbg.halted && x.regs.ctxid != 0xFFFF

/-- CYCLE_BUDGET_EXHAUSTED (R45): CYCLEFT reaches 0 and BUDX asserts. -/
def execCycleBudgetExhausted (q : SeqId) (s : State) : Out State :=
  .next (if s.alive q && (s.seq q).spends then s.modSeq q fun x => { x with bud := { x.bud with cycleft := 0, budx := true } } else s)

/-- BUDGET_STALL (R46, R53): once 256 cc have passed since BUDX, or TDEBT is 511, the sequencer issues no further word;
operations in flight land. While an instruction waits no other row counts its cc, and the row says that 256 have passed
(log 34). -/
def State.budgetStall (s : State) (q : SeqId) : State :=
  let x := s.seq q
  let late := x.bud.budx && x.wait != .none && x.regs.ctxid != 0xFFFF
  if s.alive q && x.run == .active && !x.dbg.halted && (x.bud.stuck || decide (511 ≤ x.bud.tdebt) || late) then
    (s.modSeq q Seq.landOut).modSeq q fun x => { x with
      bud := { x.bud with stall := true, cdebt := if late then 256 else x.bud.cdebt } }
  else s

def execBudgetStall (q : SeqId) (s : State) : Out State := .next (s.budgetStall q)

/-- SEQUENCER_WATCHDOG_EXPIRY (R250): COUNT has reached 0: third fault 0x4. -/
def execSequencerWatchdogExpiry (q : SeqId) (s : State) : Out State :=
  .next (if s.alive q && (s.seq q).exc.wdcount = 0 && (s.seq q).run != .mfault && (s.seq q).run != .stopped
      && !(s.seq q).dbg.halted then
    s.thirdFault q 4 (s.regs q).pc else s)

/-! ### Repeats -/

/-- RETRY_REPEAT (R352): the instruction answered RETRY may be dispatched again, no sooner than 64 cc later, which the wait
spends in class NONE. -/
def execRetryRepeat (q : SeqId) (s : State) : Out State :=
  .next (if s.alive q && (s.seq q).issues && (s.seq q).wait == .retry then
    (s.modSeq q fun x => { x with wait := .none, cond := { x.cond with retry := false } }).waited q 64 else s)

end Sys2Proof.Machine
end

