-- ==== Sys2Proof/Machine/Control.lean ====
section
/-!
DEFINITION. Control transfers, GATE, TRAP and RETS (R161 to R163, R239, R240, R247), majors 0x20 to 0x29.
-/

namespace Sys2Proof.Machine

open Sys2Proof

/-- JMP (R161). -/
def execJmp (q : SeqId) (t : Half) (s : State) : Out State := .next (runInstr (.jmp q t) q tNone (fun s => .jump s t) s)

def jccBody (q : SeqId) (minor : BitVec 4) (t : Half) (s : State) : Res :=
  if (s.regs q).jcc minor then .jump s t else .done s

/-- Jcc (R161, R162). -/
def execJcc (q : SeqId) (minor : BitVec 4) (t : Half) (s : State) : Out State :=
  .next (runInstr (.jcc q minor t) q (tSt (jccMask minor)) (jccBody q minor t) s)

/-- CALL: push16(PC + 4), then the jump (R161, R163). -/
def callBody (q : SeqId) (t : Half) (s : State) : Res :=
  pushBytes q (leBytes 2 ((s.regs q).pc + 4).toNat) s fun s => .jump s t

def execCall (q : SeqId) (t : Half) (s : State) : Out State := .next (runInstr (.call q t) q tNone (callBody q t) s)

def retBody (q : SeqId) (s : State) : Res := popBytes q 2 s fun s bs => .jump s (BitVec.ofNat 16 (ofLeBytes bs))

/-- RET (R161). -/
def execRet (q : SeqId) (s : State) : Out State := .next (runInstr (.ret q) q tNone (retBody q) s)

/-- LOOP: B[RD] := B[RD] - 1; taken while it is nonzero (R161). -/
def loopBody (q : SeqId) (rd : BitVec 5) (imm : Byte) (s : State) : Res :=
  let r := s.regs q
  let v := r.B rd - 1
  let s := s.modRegs q fun r => r.setB rd v
  if v = 0 then .done s else .jump s (r.pc + 4 + (imm.signExtend 16) * 4)

def execLoop (q : SeqId) (rd : BitVec 5) (imm : Byte) (s : State) : Out State := .next (runInstr (.loop q rd imm) q (tB rd) (loopBody q rd imm) s)

/-- JMPA (R161). -/
def execJmpa (q : SeqId) (rs : BitVec 5) (s : State) : Out State :=
  .next (runInstr (.jmpa q rs) q tNone (fun s => .jump s ((s.regs q).A rs)) s)

/-- CALLA (R161). -/
def execCalla (q : SeqId) (rs : BitVec 5) (s : State) : Out State :=
  .next (runInstr (.calla q rs) q tNone (fun s => callBody q ((s.regs q).A rs) s) s)

/-! ### GATE and TRAP (R239) -/

/-- GATE n enters vector 32 + n with the full frame; IMM8[7:4] must be 0. -/
def gateBody (q : SeqId) (imm : Byte) (s : State) : Res :=
  let pc := (s.regs q).pc
  if 16 ≤ imm.toNat then .exn s (illegal pc 0x07)
  else .entry s { vec := 32 + imm.toNat, ecause := 0, eaddr := pc, framePc := pc + 4, ipc := pc, kind := .gate }

/-- GATE. From program mode it ends the item (R400). -/
def execGate (q : SeqId) (imm : Byte) (s : State) : Out State := .next (runInstr (.gate q imm) q tNone (gateBody q imm) s)

/-- TRAP n enters vector 48 + n with the short frame and writes neither ECAUSE nor EADDR. -/
def trapBody (q : SeqId) (imm : Byte) (s : State) : Res :=
  let r := s.regs q
  if 16 ≤ imm.toNat then .exn s (illegal r.pc 0x07)
  else .entry s { vec := 48 + imm.toNat, ecause := r.ecause, eaddr := r.eaddr, framePc := r.pc + 4, ipc := r.pc, kind := .trap }

def execTrap (q : SeqId) (imm : Byte) (s : State) : Out State := .next (runInstr (.trap q imm) q tNone (trapBody q imm) s)

/-! ### RETS (R240, R247) -/

/-- ST from a frame: every bit but SHORT; reserved bit 15 stays 0. -/
def retsSt (st : Half) : Half := st &&& 0x3FFF

/-- Two bytes of the ledge. -/
def Seq.ledgeHalf (x : Seq) (off : Nat) : Half := x.ledgeAt (off + 1) ++ x.ledgeAt off

/-- RETS with DBL = 1: the ledge frame at LSP (R247). -/
def retsLedge (q : SeqId) (s : State) : Res :=
  let x := s.seq q
  let l := x.regs.lsp.toNat
  .jump (s.modRegs q fun r => { r with lsp := BitVec.ofNat 8 (Nat.min 0x40 (l + 8)), st := retsSt (x.ledgeHalf l) })
    (x.ledgeHalf (l + 2))

/-- RETS with DBL = 0: the saved ST tells the frame's length. -/
def retsFrame (q : SeqId) (s : State) : Res :=
  let sp := (s.regs q).spr
  s.load q 7 sp.toNat 2 .read fun s st =>
    let st : Half := BitVec.ofNat 16 (ofLeBytes st)
    let size : Nat := if bit st stSHORT then 4 else 8
    s.load q 7 sp.toNat size .read fun s fr =>
      .jump (s.modRegs q fun r => { r with spr := sp + BitVec.ofNat 16 size, st := retsSt st })
        (BitVec.ofNat 16 (ofLeBytes ((fr.drop 2).take 2)))

def retsBody (q : SeqId) (s : State) : Res :=
  let x := s.seq q
  if !x.regs.priv then .exn s (privFault x.regs.pc)
  else if x.exc.dbl then retsLedge q s
  else retsFrame q s

/-- RETS (R240). -/
def execRets (q : SeqId) (s : State) : Out State := .next (runInstr (.rets q) q (tSt 0xFFFF) (retsBody q) s)

end Sys2Proof.Machine
end

