-- ==== Sys2Proof/Machine/System.lean ====
section
/-!
DEFINITION. The system operations, majors 0x50 to 0x59 (R167 to R170), with locks, stimulus pulses (R381) and BRK (R372).
-/

namespace Sys2Proof.Machine

open Sys2Proof

/-! ### HOLD and FREE (R168) -/

/-- Whether another sequencer holds a word. -/
def State.lockedByOther (s : State) (q : SeqId) (a : Nat) : Bool :=
  (List.finRange 128).any fun p => p ≠ q && (s.seq p).lock == some a

/-- What HOLD came to: Z, T, and the conditions LOCKOK and LOCKBUSY (R88). -/
def State.holdFlags (s : State) (q : SeqId) (z t : Bool) : State :=
  s.modSeq q fun x => { x with
    regs := x.regs.flags { z := some z, t := some t }
    cond := { x.cond with lockok := z, lockbusy := !z && !t } }

def holdBody (q : SeqId) (f : FormR) (s : State) : Res :=
  let r := s.regs q
  if f.minor ≠ 0 then .exn s (illegal r.pc 0x02) else
  let off := (r.A f.rs).toNat
  match r.check f.segn off 4 .hold with
  | .error e => .exn s e
  | .ok a =>
    if (s.seq q).lock.isSome then .done (s.holdFlags q false true)
    else if s.lockedByOther q a then .done (s.holdFlags q false false)
    else s.load q f.segn off 4 .hold fun s bs =>
      let s := s.modSeq q fun x => { x with lock := some a }
      let s := s.modRegs q fun r => { r.setW f.rd (BitVec.ofNat 32 (ofLeBytes bs)) with st := putBit r.st stLKB false }
      .done (s.holdFlags q true false)

/-- HOLD: locks a word of a type-6 segment and reads it (R168). -/
def execHold (q : SeqId) (f : FormR) (s : State) : Out State :=
  .next (runInstr (.hold q f) q ((tW f.rd).or (tSt 0x21)) (holdBody q f) s)

/-- FREE's end: Z, LKB := 0; a deferred halt is served at the boundary that follows (R368). -/
def State.freed (s : State) (q : SeqId) (z : Bool) : State :=
  s.modSeq q fun x => { x with
    lock := if z then none else x.lock
    regs := { x.regs.flags { z := some z } with st := putBit (x.regs.flags { z := some z }).st stLKB false }
    dbg := { x.dbg with defer := false } }

def freeBody (q : SeqId) (f : FormR) (s : State) : Res :=
  let r := s.regs q
  if f.minor ≠ 0 then .exn s (illegal r.pc 0x02) else
  let off := (r.A f.rs).toNat
  match r.check f.segn off 4 .hold with
  | .error e => .exn s e
  | .ok a =>
    if (s.seq q).lock = some a then
      s.storeSeg q f.segn off (leBytes 4 (r.W f.rd).toNat) .hold false fun s => .done (s.freed q true)
    else .done (s.freed q false)

/-- FREE: writes the held word and releases its lock (R168). -/
def execFree (q : SeqId) (f : FormR) (s : State) : Out State :=
  .next (runInstr (.free q f) q ((tW f.rd).or (tSt 0x01)) (freeBody q f) s)

/-! ### YIELD, WDOG, STIM -/

/-- YIELD: retires and parks until the next gallery tick (R44, R167). -/
def yieldBody (q : SeqId) (s : State) : Res :=
  .wait ((s.modSeq q fun x => x.retire (x.regs.pc + 4)).park q)

def execYield (q : SeqId) (s : State) : Out State := .next (runInstr (.yield q) q tNone (yieldBody q) s)

/-- A privileged instruction: PRIV in program mode (R144). -/
def privBody (q : SeqId) (body : State → Res) (s : State) : Res :=
  if (s.regs q).priv then body s else .exn s (privFault (s.regs q).pc)

def wdogBody (q : SeqId) (s : State) : Res :=
  .done (s.modSeq q fun x => { x with exc := { x.exc with wdcount := x.exc.wdperiod } })

/-- WDOG (R250). -/
def execWdog (q : SeqId) (s : State) : Out State := .next (runInstr (.wdog q) q tNone (privBody q (wdogBody q)) s)

/-- A stimulus pulse is accepted (R381). -/
def State.stimOk (s : State) (q : SeqId) (p : Nat) : Bool :=
  bit (s.gal (galOf q)).stimen p && s.traceOn 0 && bit s.trace.seqs q.val
    && decide (s.trace.fifo.length + (if s.trace.owed = 0 then 0 else 1) < 256)

/-- A stimulus pulse with its packet's data word; T and STIMACK tell whether it was accepted (R381). -/
def State.stim (s : State) (q : SeqId) (p : Nat) (data : Word) : State :=
  let ok := s.stimOk q p
  let r := s.regs q
  let s := if ok then
      s.seqPacket q 0 0x05 ([BitVec.ofNat 8 p, 0] ++ leBytes 2 r.ctxid.toNat ++ leBytes 2 r.pc.toNat ++ leBytes 4 data.toNat)
    else s
  s.modSeq q fun x => { x with regs := x.regs.flags { t := some ok }, cond := { x.cond with stimack := ok } }

def stimBody (q : SeqId) (imm : Byte) (s : State) : Res :=
  if 32 ≤ imm.toNat then .exn s (illegal (s.regs q).pc 0x07) else
  privBody q (fun s => .done (s.stim q imm.toNat ((s.regs q).W 0))) s

/-- STIM: T := accepted (R167, R381). -/
def execStim (q : SeqId) (imm : Byte) (s : State) : Out State := .next (runInstr (.stim q imm) q (tSt 0x20) (stimBody q imm) s)

/-! ### Events -/

/-- EVT.PUB: publishes one count (R291). -/
def execEvtPub (q : SeqId) (ch : Byte) (s : State) : Out State :=
  .next (runInstr (.evtPub q ch) q tNone (privBody q fun s => .done (s.publish ch 1)) s)

/-- EVT.TAKE: takes one pending count; Z := taken (R296). -/
def evtTakeBody (q : SeqId) (ch : Byte) (s : State) : Res :=
  let z := (s.seq q).pendOf ch ≠ 0
  .done ((s.modSeq q fun x => x.take ch).modRegs q fun r => r.flags { z := some z })

def execEvtTake (q : SeqId) (ch : Byte) (s : State) : Out State :=
  .next (runInstr (.evtTake q ch) q (tSt 0x01) (privBody q (evtTakeBody q ch)) s)

/-- EVT.CNT: B[RD] := the pending count; Z := (count = 0) (R167). -/
def evtCntBody (q : SeqId) (rd : BitVec 5) (ch : Byte) (s : State) : Res :=
  let n := (s.seq q).pendOf ch
  .done (s.modRegs q fun r => (r.setB rd (BitVec.ofNat 8 n)).flags { z := some (n = 0) })

def execEvtCnt (q : SeqId) (rd : BitVec 5) (ch : Byte) (s : State) : Out State :=
  .next (runInstr (.evtCnt q rd ch) q ((tB rd).or (tSt 0x01)) (privBody q (evtCntBody q rd ch)) s)

/-! ### WAITE, WAITE.T, HALT (R167, R170) -/

/-- A match of an own-gallery timer is acknowledged (R308). -/
def State.timerAck (s : State) (g : GalId) (t : Fin 8) : State := s.modTimer g t fun t => { t with matched := false }

/-- A wait retires with Z. -/
def State.waitRetire (s : State) (q : SeqId) (z : Bool) : State :=
  s.modSeq q fun x => { x with wait := .none, regs := x.regs.flags { z := some z } }.retire (x.regs.pc + 4)

/-- The exits of R170 other than the event: BUDX, an interrupt above ML, a debug halt, an unbind request. -/
def Seq.waitExit (x : Seq) : Bool := x.bud.budx || x.irqNow || x.dhalt || x.unbind.isSome

/-- Where a WAITE or WAITE.T stands: its event ends it with Z := 1, before any other exit; another exit with Z := 0. A step
whose event is absent retires with Z := 0 (R367). -/
def State.waitEnd (s : State) (q : SeqId) : State :=
  let x := s.seq q
  let other (s : State) : State := if x.waitExit || x.stepping then s.waitRetire q false else s
  if !s.alive q || !x.issues then s else
  match x.wait with
  | .waite ch => if x.pendOf ch ≠ 0 then (s.modSeq q fun x => x.take ch).waitRetire q true else other s
  | .waiteT t =>
    if (s.gal (galOf q)).timers[t].matched then (s.timerAck (galOf q) t).waitRetire q true else other s
  | _ => s

/-- WAITE: waits for a pending count of a channel (R170). -/
def waiteBody (q : SeqId) (ch : Byte) (s : State) : Res :=
  .wait ((s.modSeq q fun x => { x with wait := .waite ch }).waitEnd q)

def execWaite (q : SeqId) (ch : Byte) (s : State) : Out State :=
  .next (runInstr (.waite q ch) q (tSt 0x01) (privBody q (waiteBody q ch)) s)

/-- WAITE.T: waits for a match of timer IMM8[2:0] (R170). -/
def waiteTBody (q : SeqId) (imm : Byte) (s : State) : Res :=
  if 8 ≤ imm.toNat then .exn s (illegal (s.regs q).pc 0x07)
  else privBody q (fun s => .wait ((s.modSeq q fun x => { x with wait := .waiteT (Fin.ofNat 8 imm.toNat) }).waitEnd q)) s

def execWaiteT (q : SeqId) (imm : Byte) (s : State) : Out State := .next (runInstr (.waiteT q imm) q (tSt 0x01) (waiteTBody q imm) s)

/-- The cc that a wait took, once it has ended. -/
def State.waitOver (s t : State) (q : SeqId) : State := if (t.seq q).wait = (s.seq q).wait then t else t.waited q 0

/-- WAIT_END. -/
def execWaitEnd (q : SeqId) (s : State) : Out State := .next (s.waitOver (s.waitEnd q) q)

/-- A HALT retires once the prefetch slot is occupied or a cause of BOUND is pending; the idle loop then binds the item. -/
def State.haltWake (s : State) (q : SeqId) : State :=
  let x := s.seq q
  if s.alive q && x.issues && x.wait == .halt && (x.prefetch.isSome || x.bound || x.dhalt || x.stepping) then
    (s.modSeq q fun x => { x with wait := .none }.retire (x.regs.pc + 4)).idleBind q
  else s

/-- HALT: stops issuing until work or a cause of BOUND (R167). -/
def haltBody (q : SeqId) (s : State) : Res := .wait ((s.modSeq q fun x => { x with wait := .halt }).haltWake q)

def execHalt (q : SeqId) (s : State) : Out State := .next (runInstr (.halt q) q tNone (privBody q (haltBody q)) s)

/-- HALT_WAKE. -/
def execHaltWake (q : SeqId) (s : State) : Out State := .next (s.waitOver (s.haltWake q) q)

/-! ### BRK and SETML -/

/-- BRK: BREAK, or with BRKHALT a halt request with WHY 4 (R372). -/
def brkBody (q : SeqId) (k : Half) (s : State) : Res :=
  let x := s.seq q
  let pc := x.regs.pc
  if x.dbg.brkhalt then
    .done (s.modSeq q fun x =>
      let y := x.requestHalt 4
      { y with dbg := { y.dbg with brkcode := k } })
  else .entry s { vec := 8, ecause := 0, eaddr := k, framePc := pc + 4, ipc := pc, kind := .fault }

def execBrk (q : SeqId) (k : Half) (s : State) : Out State := .next (runInstr (.brk q k) q tNone (brkBody q k) s)

/-- SETML: ST.ML := IMM8[2:0] (R242). -/
def setmlBody (q : SeqId) (imm : Byte) (s : State) : Res :=
  if 8 ≤ imm.toNat then .exn s (illegal (s.regs q).pc 0x07)
  else privBody q (fun s => .done (s.modRegs q fun r => r.withMl (imm.setWidth 3))) s

def execSetml (q : SeqId) (imm : Byte) (s : State) : Out State := .next (runInstr (.setml q imm) q tNone (setmlBody q imm) s)

end Sys2Proof.Machine
end

