-- ==== Sys2Proof/Machine/Tick.lean ====
section
/-!
DEFINITION. The tick (R41 to R43), the plant governor and its thermal model (R50 to R56), and the start of a gallery tick:
cycle budgets, token shares, watchdogs (R44 to R47, R52, R53, R250).
-/

namespace Sys2Proof.Machine

open Sys2Proof

/-! ### Plant registers as a write leaves them (R10, R337) -/

/-- PLANTLIM: a PMAX above 24,000 stores 24,000. -/
def plantlimWrite (v : Word) : Word := if 24000 < (v &&& 0xFFFF).toNat then (v &&& 0xFFFF0000) ||| 24000 else v
def thlimWrite (v : Word) : Word := v &&& 0x8FFF0FFF
def holdcfgWrite (v : Word) : Word := v &&& 0x8FFFFFFF
/-- BUDCOSTn: class NONE and class 0xF are fixed 0 (R49). -/
def budcostWrite (n : Nat) (v : Word) : Word :=
  (v &&& 0x0FFF0FFF) &&& (if n = 0 then 0xFFFF0000 else 0xFFFFFFFF) &&& (if n = 7 then 0x0000FFFF else 0xFFFFFFFF)

/-- Cost of a debit class in 1/4,096 token (R48, R49). -/
def Power.cost (p : Power) (cls : Nat) : Nat :=
  let w := (p.budcost.toList.getD (cls / 2) 0).toNat
  if cls % 2 = 1 then w / 65536 % 4096 else w % 4096

/-- Word i of PLANT_CFG (R337): PLANTLIM, PLANTADJ, THCOEF0 to THCOEF2, THLIM, BUDCOST0 to BUDCOST7. -/
def State.plantWord (s : State) (i : Nat) : Word :=
  match i with
  | 0 => s.plant.plantlim
  | 1 => s.plant.plantadj
  | 2 => s.plant.thcoef0
  | 3 => s.plant.thcoef1
  | 4 => s.plant.thcoef2
  | 5 => s.plant.thlim
  | n => s.pow.budcost.toList.getD (n - 6) 0

def State.setPlantWord (s : State) (i : Nat) (v : Word) : State :=
  match i with
  | 0 => { s with plant := { s.plant with plantlim := plantlimWrite v } }
  | 1 => { s with plant := { s.plant with plantadj := v } }
  | 2 => { s with plant := { s.plant with thcoef0 := v } }
  | 3 => { s with plant := { s.plant with thcoef1 := v } }
  | 4 => { s with plant := { s.plant with thcoef2 := v } }
  | 5 => { s with plant := { s.plant with thlim := thlimWrite v } }
  | n => { s with pow := { s.pow with budcost := s.pow.budcost.setIfInBounds (n - 6) (budcostWrite (n - 6) v) } }

/-- A write of HOLDCFG: EN going to 0 releases every reservation (R56). -/
def State.writeHoldcfg (s : State) (v : Word) : State :=
  let s0 := s
  let off := s.pow.holdEn && !bit v 31
  let s := { s with pow := { s.pow with holdcfg := holdcfgWrite v } }
  if !off then s else
  let s := s.each s.galleries fun s g => s.modMd g fun m =>
    { m with tags := m.tags.map fun t => { t with resv := 0, noResv := true } }
  s.countReleased s0

/-! ### Tick configuration (R41, R43) -/

/-- The bounds of R41 and R46 that TICKCFG and TGUARD meet together; the length in fc is judged by SCLKRATIO. -/
def tickOk (period mhz guard ratio : Nat) : Bool :=
  decide (2 * mhz ≤ period) && decide (period ≤ 1000 * mhz) && decide (1024 * 256 * 1000000 * mhz ≤ period * ratio * 32768)
    && decide (guard + 512 ≤ period) && decide (256 ≤ guard)

/-- The default phase of gallery g (R7). -/
def State.defaultPhase (s : State) (g : GalId) (period : Nat) : BitVec 21 :=
  BitVec.ofNat 21 (g.val * period / s.variant.ngal)

def State.tickErr (s : State) : State := { s with plant := { s.plant with tickerr := true } }

/-- Replaces every phase not below the period by its default, with TICKERR (R43). -/
def State.fixPhases (s : State) : State :=
  s.each s.galleries fun s g =>
    if (s.gal g).phase.toNat < s.plant.period.toNat then s
    else (s.modGal g fun x => { x with phase := s.defaultPhase g s.plant.period.toNat }).tickErr

/-- AD or AP scaled to a new tick (R337). -/
def scaleCoef (v oldP oldM newP newM : Nat) : Nat := Nat.min 65535 (v * newP * oldM / (newM * oldP))

/-- TICK_CFG's part of the boundary: the coefficients, and the reply. -/
def State.tickCfgEnd (s : State) (m : MbId) (ok : Bool) (oldP oldM : Nat) : State :=
  if !ok then s.reply m mbBADARG 0 else
  let c := s.plant.thcoef2.toNat
  let sc (v : Nat) := scaleCoef v oldP oldM s.plant.period.toNat s.plant.mhz.toNat
  let ad := sc (c / 65536)
  let ap := sc (c % 65536)
  let s := { s with plant := { s.plant with thcoef2 := BitVec.ofNat 32 (ad * 65536 + ap) } }
  s.reply m mbOK 0 (leBytes 2 ad ++ leBytes 2 ap)

/-- The pending tick configuration is judged as a whole and takes effect, or is discarded with TICKERR. -/
def State.applyTickCfg (s : State) (ms : List MbId) : State :=
  let p := s.plant
  if p.pendCfg.isNone && p.pendGuard.isNone then s else
  let cfg := p.pendCfg.getD (p.mhz.setWidth 32 <<< 21 ||| p.period.setWidth 32)
  let guard := p.pendGuard.getD p.tguard
  let period : BitVec 21 := cfg.setWidth 21
  let mhz : BitVec 11 := cfg.extractLsb' 21 11
  let ok := tickOk period.toNat mhz.toNat guard.toNat s.ev.ratio.toNat
  let p' : Plant := { p with pendCfg := none, pendGuard := none }
  let s := { s with plant := if ok then { p' with period := period, mhz := mhz, tguard := guard } else { p' with tickerr := true } }
  s.each ms fun s m => s.tickCfgEnd m ok p.period.toNat p.mhz.toNat

/-- The number of the next gallery tick after a change of period or phase at the boundary of number j (R43): the tick in progress,
which would have ended `e` cc after the boundary, is lengthened to the first point PHASE cc after the start of a reference
tick that is not earlier; the numbers between are skipped. -/
def nextNumber (j e period phase : Nat) : Nat :=
  if e ≤ phase then j else j + (e - phase + period - 1) / period

/-- The tick in progress of gallery g is lengthened to its new phase position (R43). -/
def State.lengthen (s : State) (g : GalId) (oldPeriod oldPhase : Nat) : State :=
  let j := s.plant.ticknum.toNat
  s.modGal g fun x =>
    if x.tick.isNone then x else
    let e := (x.nextTick - j) * oldPeriod + oldPhase
    { x with nextTick := nextNumber j e s.plant.period.toNat x.phase.toNat }

/-- The configuration writes that take effect at a reference tick boundary (R43, R337, R338): PLANT_CFG first, then the
tick configuration, then phases, then the ticks in progress are lengthened. DESIGN CHOICE (log 82): direct writes of PHASE come
before a STAGGER that waits for the same boundary, so STAGGER's phases stand whatever order they were made in. -/
def State.applyConfig (s : State) : State :=
  let s0 := s
  let ws := s.plant.writes
  let s := { s with plant := { s.plant with writes := [] } }
  let s := s.each ws fun s w => match w with
    | .plant m mask words =>
      let s := s.each (List.range 14) fun s i => if bit mask i then s.setPlantWord i (words.getD i 0) else s
      s.reply m mbOK 0 ((List.range 14).flatMap fun i => leBytes 4 (s.plantWord i).toNat)
    | _ => s
  let s := s.applyTickCfg (ws.filterMap fun w => match w with | .tick m _ _ _ => some m | _ => none)
  let s := s.each s.plant.pendPhase fun s e => s.modGal e.1 fun x => { x with phase := e.2 }
  let s := { s with plant := { s.plant with pendPhase := [] } }
  let s := s.each ws fun s w => match w with
    | .stagger phases m =>
      (s.each s.galleries fun s g => s.modGal g fun x => { x with phase := phases.getD g.val (s.defaultPhase g s.plant.period.toNat) }).reply m mbOK
    | _ => s
  s.fixPhases.each s.galleries fun s g => s.lengthen g s0.plant.period.toNat (s0.gal g).phase.toNat

/-- HOLDUP_CFG at the boundary, after the hold-up report has been judged. -/
def State.applyHold (s : State) (ws : List BoundaryWrite) : State :=
  s.each ws fun s w => match w with
    | .hold m v =>
      let s := s.writeHoldcfg v
      s.reply m mbOK 0 (leBytes 4 s.pow.holdcfg.toNat
        ++ leBytes 4 (s.pow.hold.toNat + if s.pow.holdlow then 2 ^ 24 else 0))
    | _ => s

/-! ### The thermal model (R54, R397) -/

/-- Held within -64 to 127 degC, in units of 2^-16 degC. -/
def clampTemp (x : Int) : Int := max (-64 * 65536) (min (127 * 65536) x)

/-- The model step of a boundary: a node with a sample takes it, every other node integrates from the temperatures that stood
before the step. `period` and `mhz` are those of the
tick whose debits are measured; P is 2 mW per token and microsecond. -/
def State.modelStep (s : State) (period mhz : Nat) : State :=
  let p := s.plant
  let hi (w : Word) : Int := (w.toNat / 65536 : Nat)
  let lo (w : Word) : Int := (w.toNat % 65536 : Nat)
  let per : Int := period
  let power : Int := 2 * s.pow.debited * mhz + hi p.plantlim * per
  let xd := (power + lo p.plantadj * per) * 65536 - lo p.thcoef0 * (p.td - p.tp) * per
  let xp := lo p.thcoef0 * (p.td - p.tp) - lo p.thcoef1 * (p.tp - p.te)
  let td := p.sd.getD (clampTemp (p.td + hi p.thcoef2 * xd / (per * 2 ^ 40)))
  let tp := p.sp.getD (clampTemp (p.tp + lo p.thcoef2 * xp / 2 ^ 40))
  let te := p.se.getD p.te
  let ageD := if p.sd.isSome then 0 else p.ageD + 1
  let ageP := if p.sp.isSome then 0 else p.ageP + 1
  { s with
    plant := { p with td := td, tp := tp, te := te, sd := none, sp := none, se := none, ageD := ageD, ageP := ageP }
    pow := { s.pow with debited := 0, stale := decide (64 ≤ ageD) || decide (64 ≤ ageP) } }

/-! ### The allowance (R50, R51, R55) -/

/-- tokens(x): mW to tokens per tick. -/
def Plant.tokens (p : Plant) (x : Nat) : Nat := x * p.period.toNat / (2 * p.mhz.toNat)

/-- The thermal ceiling before the ramp, in whole mW; a limit is a signed temperature in 1/16 degC. -/
def Plant.ceiling (p : Plant) : Nat :=
  let hi (w : Word) : Int := (w.toNat / 65536 : Nat)
  let lo (w : Word) : Int := (w.toNat % 65536 : Nat)
  let limD : Int := (p.thlim.extractLsb' 16 12).toInt * 4096
  let limP : Int := (p.thlim.extractLsb' 0 12).toInt * 4096
  let pdie := hi p.thcoef0 * (limD - p.td) + lo p.thcoef0 * (p.td - p.tp)
  let ppkg := hi p.thcoef1 * (limP - p.tp) + lo p.thcoef1 * (p.tp - p.te)
  ((min pdie ppkg) / 65536 - lo p.plantadj).toNat

/-- The engine allowance E of the next tick. -/
def State.allowance (s : State) : State :=
  let p := s.plant
  let pmax := p.plantlim.toNat % 65536
  let ramp := p.plantadj.toNat / 65536
  let en := bit p.thlim 31
  let raw := if en then p.ceiling else pmax
  let ramped := en && decide (s.pow.prevceil + ramp < raw)
  let c1 := if ramped then s.pow.prevceil + ramp else raw
  let ceil := if en && s.pow.stale then Nat.min c1 s.pow.prevceil else c1
  let e := Nat.min (p.tokens (Nat.min ceil pmax)) s.pow.grant.toNat - p.tokens (p.plantlim.toNat / 65536)
  let set := s.galleries.filter fun g => (s.gal g).gstate == .serving || (s.gal g).gstate == .squeezing
  { s with pow := { s.pow with
      prevceil := ceil, ramped := ramped, etok := BitVec.ofNat 24 e, enext := e
      wnext := set.map fun g => (g, (s.gal g).weight) } }

/-- HOLDLOW is judged (R56). -/
def State.judgeHold (s : State) : State :=
  if s.pow.holdEn && !s.holdFits 0 then
    ({ s with pow := { s.pow with holdlow := true } } : State).hirq hirqHoldlow
  else s

/-! ### The ledger's terms (R57) -/

/-- Live value of a term: a cumulative counter, or a unit's state with its maintenance offset. DESIGN CHOICE (log 83): the sum of
(reserved - released) of code 6 is read as two terms, number 2 the reserved and number 3 the released tokens. -/
def State.ledTerm (s : State) (code scope term : Nat) : Option Word :=
  let w (n : Nat) : Word := BitVec.ofNat 32 n
  let g : GalId := Fin.ofNat 16 scope
  let x := s.gal g
  let at_ (i : Nat) : Word := x.led.toList.getD i 0
  let tokSum (f : Bud → Nat) : Nat := ((seqsOf g).map fun q => f (s.seq q).bud).sum
  let mine (it : Item) : Bool := it.scope = g
  let slots : Nat := (s.allSeqs.map fun q =>
    ((s.seq q).running.toList ++ (s.seq q).prefetch.toList).countP mine).sum
  let cell := s.ev.cells.toList.getD scope {}
  let credit (base held : Nat) : Option Word :=
    if term < 4 ∧ s.present g ∧ scope < 16 then some (at_ (base + term) + (if term = 2 then w held else 0)) else none
  match code with
  | 1 => credit 0 x.md.rq
  | 2 => credit 4 x.md.rd
  | 3 => credit 8 x.md.wd
  | 4 => if term < 4 ∧ s.present g ∧ scope < 16 then
      some (at_ (12 + term) + (if term = 0 then 1024 else if term = 1 then w (1024 - x.md.tags.length) else 0)) else none
  | 5 => if term < 5 ∧ s.present g ∧ scope < 16 then
      some (at_ (16 + term) + (if term = 3 then w (tokSum fun b => b.tokleft) else if term = 4 then w (tokSum fun b => b.tdebt) else 0))
      else none
  | 6 => if term < 4 then
      some (s.ledger.resv.toList.getD term 0 + (if term = 0 then w s.resvTok else if term = 1 then w (64 * s.pow.base) else 0)) else none
  | 7 => if term < 2 ∧ scope / 16 < s.variant.ngal then
      some (if term = 0 then 1 + s.ledger.owners.toList.getD scope 0 else 1) else none
  | 8 => if term < 5 ∧ s.present g ∧ scope < 16 then
      some (at_ (21 + term) + (if term = 2 then w slots
        else if term = 3 then w (s.work.heldItems.countP fun e => mine e.1) else 0)) else none
  | 9 => if term < 3 ∧ scope < 64 then
      some (if term = 0 then cell.cin else if term = 1 then cell.cout else cell.adj + w cell.held) else none
  | _ => none

/-- The sum of an invariant, modulo 2^32. -/
def State.ledSum (s : State) (code scope : Nat) : Word :=
  let t (i : Nat) : Word := (s.ledTerm code scope i).getD 0
  match code with
  | 1 | 2 | 3 => t 0 - t 1 - t 2 - t 3
  | 4 => t 0 - t 1 - t 2 + t 3
  | 5 => t 0 - t 1 - t 2 - (t 3 - t 4)
  | 6 => t 0 - t 1 - (t 2 - t 3)
  | 7 => t 0 - t 1
  | 8 => t 0 - t 1 - t 2 - t 3 - t 4
  | 9 => t 0 - t 1 - t 2
  | _ => 0

/-- The scopes of an invariant (R57): present galleries, the engine, banks, cells configured to conserve. -/
def State.ledScopes (s : State) : Nat → List Nat
  | 6 => [0xFF]
  | 7 => List.range (16 * s.variant.ngal)
  | 9 => (List.finRange 64).filterMap fun j => if bit s.ev.cells[j].ctl 7 then some j.val else none
  | _ => List.range s.variant.ngal

/-- The snapshot of a boundary: the invariants that fail on it, with their differences (R58). -/
def State.ledgerSnapshot (s : State) : State :=
  let bad := (List.range 9).flatMap fun k =>
    (s.ledScopes (k + 1)).filterMap fun sc =>
      let d := s.ledSum (k + 1) sc
      if d = 0 then none else some (k + 1, sc, d)
  { s with ledger := { s.ledger with snap := bad, snapTick := s.plant.ticknum.setWidth 32, haveSnap := true } }

/-! ### Scrub read (R114) -/

/-- A corrected error of a store word or a map entry is counted, and its rewrite is owed (R93, R114). -/
def State.storeCorrected (s : State) (q : SeqId) (isMap : Bool) (a : BitVec 12) : State :=
  let s := s.modSeq q fun x => { x with cs :=
    if isMap then { x.cs with mce := satInc8 x.cs.mce } else { x.cs with ce := satInc8 x.cs.ce, ceaddr := a } }
  if s.mp.scrubOwed.contains (q, isMap, a) then s
  else { s with mp := { s.mp with scrubOwed := s.mp.scrubOwed ++ [(q, isMap, a)] } }

/-- The scrub's read of one control-store word and one map entry of each sequencer, while the MP runs; each read holds the
sequencer for 1 cc (R114). -/
def State.scrubRead (s : State) : State :=
  if !s.mp.up || s.eng.mpbusy then s else
  let a := s.mp.scrub
  let am : BitVec 12 := BitVec.ofNat 12 (a.toNat % 1024)
  let owe (s : State) (e : SeqId × Bool × BitVec 12) : State :=
    if s.mp.scrubOwed.contains e then s else { s with mp := { s.mp with scrubOwed := s.mp.scrubOwed ++ [e] } }
  let s := s.each (s.allSeqs.filter fun q => s.logicOn (galOf q)) fun s q =>
    let st := (s.seq q).store
    let s := s.modSeq q fun x => x.spendCc.spendCc
    let s := if st.ue.contains a.toNat then owe s (q, false, a)
      else if st.ce.contains a.toNat then s.storeCorrected q false a else s
    if st.mue.contains am.toNat then owe s (q, true, am)
    else if st.mce.contains am.toNat then s.storeCorrected q true am else s
  { s with mp := { s.mp with scrub := a + 1 } }

/-! ### REFERENCE_TICK (R42, R50) -/

/-- Inputs of the stuck check: RISE and FALL inputs that stayed active (R299). -/
def EvIn.countActive (x : EvIn) : EvIn :=
  let act := (x.mode = 1 && x.lvl) || (x.mode = 2 && !x.lvl)
  { x with active := if act then x.active + 1 else 0 }

/-- A SYNC packet every SYNC reference ticks (R382). -/
def State.syncPacket (s : State) : State :=
  let n := (s.trace.ctl.extractLsb' 16 8).toNat
  if bit s.trace.ctl 31 && n != 0 && s.plant.ticknum.toNat % n == 0 then
    s.packet 0x01 0xFF (leBytes 6 s.plant.ticknum.toNat ++ [0, 0, 0, 0])
  else s

/-- What every reference tick boundary does after TICKNUM has its value. -/
def State.boundaryAt (s : State) (grant hold : BitVec 24) : State :=
  let period := s.plant.period.toNat
  let mhz := s.plant.mhz.toNat
  let holds := s.plant.writes
  let s := s.applyConfig
  let s := { s with pow := { s.pow with grant := grant, hold := hold } }
  let s := s.modelStep period mhz
  let s := s.allowance
  let s := s.judgeHold
  let s := s.applyHold holds
  let s := { s with ev := { s.ev with ins := s.ev.ins.map EvIn.countActive } }
  let s := s.scrubRead
  s.ledgerSnapshot.syncPacket

/-- REFERENCE_TICK: TICKNUM advances; the allowance computed during the last tick applies to this one (R50). -/
def State.referenceTick (s : State) (grant hold : BitVec 24) : State :=
  if !s.plant.tickOn then s else
  let s := { s with
    plant := { s.plant with ticknum := s.plant.ticknum + 1 }
    pow := { s.pow with ecur := s.pow.enext, wcur := s.pow.wnext } }
  s.boundaryAt grant hold

def execReferenceTick (grant hold : BitVec 24) (s : State) : Out State := .next (s.referenceTick grant hold)

/-- PLANT_STALE (R54): no sample of the die or package node for 64 reference ticks. -/
def State.plantStale (s : State) : State :=
  if 64 ≤ s.plant.ageD ∨ 64 ≤ s.plant.ageP then { s with pow := { s.pow with stale := true } } else s

def execPlantStale (s : State) : Out State := .next s.plantStale

/-- TEMPERATURE_SAMPLE (R54, R397): 0 die, 1 package, 2 enclosure, a signed value in 1/16 degC; STALE clears once both
nodes have a sample again. -/
def State.temperatureSample (s : State) (src : Nat) (temp : BitVec 12) : State :=
  let t := clampTemp (temp.toInt * 4096)
  let p := s.plant
  match src with
  | 0 => { s with plant := { p with sd := some t, ageD := 0 }, pow := { s.pow with stale := s.pow.stale && decide (64 ≤ p.ageP) } }
  | 1 => { s with plant := { p with sp := some t, ageP := 0 }, pow := { s.pow with stale := s.pow.stale && decide (64 ≤ p.ageD) } }
  | 2 => { s with plant := { p with se := some t } }
  | _ => s

def execTemperatureSample (src : BitVec 2) (temp : BitVec 12) (s : State) : Out State :=
  .next (s.temperatureSample src.toNat temp)

/-! ### Gallery tick (R44 to R47, R52, R53) -/

/-- The hold-up room of gallery g (R56). -/
def State.holdRoom (s : State) (g : GalId) : Nat :=
  let debt : Nat := ((seqsOf g).map fun q => (s.seq q).bud.tdebt).sum
  let left : Nat := ((seqsOf g).map fun q => (s.seq q).bud.tokleft).sum
  (64 * (s.pow.hold.toNat : Int) - s.resvTok - (s.outTok - left + debt) + debt).toNat

/-- What gallery g receives at its tick, and CUT (R40, R52, R56). -/
def State.galleryValue (s : State) (g : GalId) : Nat × Bool :=
  let total : Nat := (s.pow.wcur.map fun e => e.2.toNat).sum
  let w : Nat := ((s.pow.wcur.find? fun e => e.1 = g).map fun e => e.2.toNat).getD 0
  let may := ((s.gal g).gstate == .serving || (s.gal g).gstate == .squeezing) && !s.pd.active
  let v := if total = 0 || !may then 0 else s.pow.ecur * w / total
  let v1 := if s.pow.holdEn then Nat.min v (s.holdRoom g) else v
  let v2 := Nat.min v1 1048575
  (v2, decide (v2 < v))

/-- R53 and R44 for one sequencer: the new budget; `cycb` is PERIOD − TGUARD. -/
def Bud.reload (b : Bud) (cycb share : Nat) : Bud :=
  let cyc := cycb - b.cdebt
  let tok := share - b.tdebt
  let debt := b.tdebt - share
  { b with cycleft := cyc, cdebt := 0, tokleft := tok, tdebt := debt, budx := tok = 0 || cyc = 0
           stall := b.stall && decide (511 ≤ debt) }

/-- Whether a tick start advances the watchdog of a sequencer that spent the tick before it so (R47, R250): every tick but
those with a share of 0, stalled from start to end, or started while debug-halted. -/
def Seq.wdAdvances (x : Seq) (share : Nat) (stalled : Bool) : Bool :=
  share != 0 && !x.dbg.halted && !stalled

/-- The start of its gallery's tick for one sequencer: what was in flight when a stall froze it has landed (R46), leftover tokens return, budgets reload, the watchdog counts, TICKS
sets, a parked sequencer resumes (R44, R46, R53, R244, R250). -/
def State.seqTick (s : State) (g : GalId) (share : Nat) (q : SeqId) : State :=
  let s := if (s.seq q).bud.stuck then s.modSeq q Seq.landOut else s
  let x := s.seq q
  let s := (s.led g 18 x.bud.tokleft).breakLock q
  let b := x.bud.reload (s.plant.period.toNat - s.plant.tguard.toNat) share
  let adv := x.wdAdvances share (x.bud.stall && b.stall)
  let wd := if adv && x.exc.wdcount != 0 then x.exc.wdcount - 1 else x.exc.wdcount
  let held (it : Item) : Item := { it with ticks := if x.prefetch.isSome then it.ticks + 1 else it.ticks }
  let s := s.modSeq q fun x => { x with
    bud := b, ticks := true, running := x.running.map held
    run := if x.run == .parked then .active else x.run
    exc := { x.exc with wdcount := wd } }
  let s := if decide (wd.toNat ≤ 1) && decide (1 < x.exc.wdcount.toNat) then s.irq q 7 else s
  s.idleBind q

/-- An armed timer starts (R305). -/
def Timer.syncStart (t : Timer) : Timer := if t.armed then { t with armed := false, en := true, hit := false } else t

/-- The start of the gallery tick that carries the reference tick's number (R42); a number that a lengthened tick skips has
none (R43). -/
def State.galleryTick (s : State) (g : GalId) : State :=
  if !s.plant.tickOn || !s.logicOn g || (s.gal g).tick = some s.plant.ticknum
      || decide (s.plant.ticknum.toNat < (s.gal g).nextTick) then s else
  let (v, cut) := s.galleryValue g
  let s := (s.led g 16 v).led g 18 (v % 8)
  let s := s.modGal g fun x => { x with
    tick := some s.plant.ticknum, cut := cut
    deadleft := if x.gstate == .squeezing && x.deadleft != 0 && !s.pd.active then x.deadleft - 1 else x.deadleft
    timers := x.timers.map Timer.syncStart
    lines := x.lines.map fun l => if l.busy then { l with age := l.age + 1 } else l
    md := { x.md with tags := x.md.tags.map fun t => { t with age := t.age + 1 } }
    quantum := s.mp.quantum, early := s.mp.early }
  s.each (seqsOf g) fun s q => s.seqTick g (v / 8) q

/-! ### Register rows of the tick -/

/-- TICKNUML_READ: the read latches NUMH for the next read of TICKNUMH (R42). -/
def execTicknumlRead (s : State) : Out State :=
  .next { s with plant := { s.plant with numhLatch := s.plant.ticknum.extractLsb' 32 16 }
                 eng := { s.eng with rdata := s.plant.ticknum.setWidth 32, hpErr := false } }

/-- TICKCFG_WRITE: held pending until the next boundary; a second write replaces the first (R41). A write of TICKCTL also
clears TICKERR where bit 16 is 1. -/
def execTickcfgWrite (guard : Bool) (v : Word) (s : State) : Out State :=
  .next (if guard then
    { s with plant := { s.plant with pendGuard := some (v.setWidth 12), tickerr := s.plant.tickerr && !bit v 16 } }
  else { s with plant := { s.plant with pendCfg := some v } })

/-- PHASE_WRITE: takes effect at the next reference tick boundary (R43). -/
def State.phaseWrite (s : State) (g : GalId) (v : Word) : State :=
  { s with plant := { s.plant with pendPhase := (s.plant.pendPhase.filter fun e => e.1 ≠ g) ++ [(g, v.setWidth 21)] } }

def execPhaseWrite (g : GalId) (v : Word) (s : State) : Out State := .next (s.phaseWrite g v)

end Sys2Proof.Machine
end

