-- ==== Sys2Proof/Machine/Timer.lean ====
section
/-!
DEFINITION. Gallery timers (R305 to R310): counting, matches, captures read out, and the writes of CTL, COUNT and CMP.
-/

namespace Sys2Proof.Machine

open Sys2Proof

def State.timer (s : State) (g : GalId) (t : Fin 8) : Timer := (s.gal g).timers[t]

/-! ### Conditions (R308) -/

/-- TMRM of sequencer q of a gallery. -/
def Gal.tmrm (x : Gal) (q : Fin 8) : Bool := x.timers.toList.any fun t => t.seq = q && t.matched
/-- The same OR over the timers with IE = 1. -/
def Gal.tmrIrq (x : Gal) (q : Fin 8) : Bool := x.timers.toList.any fun t => t.seq = q && t.matched && t.ie

/-- Vector 16 on the rising edge of that OR since state s0. -/
def State.tmrEdges (s s0 : State) (g : GalId) : State :=
  s.each (List.finRange 8) fun s i =>
    if !(s0.gal g).tmrIrq i && (s.gal g).tmrIrq i then s.irq (seqId g i) 0 else s

/-! ### Match (R306 to R308) -/

/-- At a match: MATCH, and CMP := CMP + INTV under AUTO. -/
def Timer.onMatch (t : Timer) : Timer :=
  { t with matched := true, hit := false, cmp := if t.auto then t.cmp + t.intv.setWidth 48 else t.cmp }

/-- The timer matches. -/
def State.timerMatched (s : State) (g : GalId) (t : Fin 8) : State :=
  let x := s.timer g t
  let s1 := (s.modTimer g t Timer.onMatch).tmrEdges s g
  if x.pub then s1.publish x.pubch 1 else s1

/-- TIMER_MATCH: COUNT equals CMP after an increment. -/
def State.timerMatch (s : State) (g : GalId) (t : Fin 8) : State :=
  if (s.timer g t).hit then s.timerMatched g t else s

def execTimerMatch (g : GalId) (t : Fin 8) (s : State) : Out State := .next (s.timerMatch g t)

/-! ### Counting (R305) -/

/-- The timer's counting logic has power (R310). -/
def State.timerOn (s : State) (g : GalId) : Bool := s.present g && (s.variant.aotmr || s.logicOn g)

def Timer.count1 (t : Timer) : Timer := { t with count := t.count + 1, hit := t.count + 1 == t.cmp, residue := 0 }

/-- TIMER_INCREMENT: COUNT + 1 modulo 2^48 while EN = 1; a match not yet made comes first. -/
def State.timerIncrement (s : State) (g : GalId) (t : Fin 8) : State :=
  if !s.timerOn g || !(s.timer g t).en then s else (s.timerMatch g t).modTimer g t Timer.count1

def execTimerIncrement (g : GalId) (t : Fin 8) (s : State) : Out State := .next (s.timerIncrement g t)

/-! ### Writes -/

/-- AUTO may be set in START, TEST and RECOVERY (R307). -/
def State.autoOk (s : State) : Bool := s.eng.state == .start || s.eng.state == .test || s.eng.state == .recovery

/-- A write of CTL (R305, R307). -/
def Timer.writeCtl (t : Timer) (v : Word) (autoOk : Bool) : Timer :=
  let en := bit v 31
  let sync := bit v 30
  let arm := en && sync && !t.en
  { t with
    en := en && !arm, armed := arm, sync := sync, auto := bit v 29 && autoOk, tmrerr := t.tmrerr || (bit v 29 && !autoOk)
    ie := bit v 28, pub := bit v 27, seq := Fin.ofNat 8 (v.extractLsb' 24 3).toNat, pubch := v.extractLsb' 16 8
    pre := v.extractLsb' 0 8 }

def State.timerCtl (s : State) (g : GalId) (t : Fin 8) (v : Word) : State :=
  (s.modTimer g t fun x => x.writeCtl v s.autoOk).tmrEdges s g

/-- TIMER_CTL_WRITE. -/
def execTimerCtlWrite (g : GalId) (t : Fin 8) (v : Word) (s : State) : Out State :=
  .next (if s.logicOn g then s.timerCtl g t v else s)

/-- A write of COUNT: the high word is held; the low word applies both while EN = 0, else TMRERR (R305). -/
def Timer.writeCount (t : Timer) (high : Bool) (v : Word) : Timer :=
  if high then { t with cntHeld := some (v.setWidth 16) }
  else if t.en then { t with cntHeld := none, tmrerr := true }
  else { t with cntHeld := none, count := t.cntHeld.getD (t.count.extractLsb' 32 16) ++ v }

def State.timerCount (s : State) (g : GalId) (t : Fin 8) (high : Bool) (v : Word) : State :=
  s.modTimer g t fun x => x.writeCount high v

/-- TIMER_COUNT_WRITE. -/
def execTimerCountWrite (g : GalId) (t : Fin 8) (high : Bool) (v : Word) (s : State) : Out State :=
  .next (if s.logicOn g then s.timerCount g t high v else s)

/-- A new CMP is judged against COUNT: equal, ahead, or behind with MISSED (R306). -/
def Timer.setCmp (t : Timer) (c : BitVec 48) : Timer :=
  let d := (c - t.count).toNat
  { t with cmp := c, hit := d = 0, missed := t.missed || decide (2 ^ 47 ≤ d) }

def Timer.writeCmp (t : Timer) (high : Bool) (v : Word) : Timer :=
  if high then { t with cmpHeld := some (v.setWidth 16) }
  else { t with cmpHeld := none }.setCmp (t.cmpHeld.getD (t.cmp.extractLsb' 32 16) ++ v)

/-- A write of CMP; a match not yet made was of the old CMP and comes first, and a new CMP equal to COUNT matches with the write
(R306). -/
def State.timerCmp (s : State) (g : GalId) (t : Fin 8) (high : Bool) (v : Word) : State :=
  ((s.timerMatch g t).modTimer g t fun x => x.writeCmp high v).timerMatch g t

/-- TIMER_CMP_WRITE. -/
def execTimerCmpWrite (g : GalId) (t : Fin 8) (high : Bool) (v : Word) (s : State) : Out State :=
  .next (if s.logicOn g then s.timerCmp g t high v else s)

/-- STAT (R305 to R310). -/
def Timer.stat (t : Timer) : Word :=
  ofB 32 t.matched ||| (ofB 32 t.armed <<< 1) ||| (ofB 32 t.missed <<< 2) ||| (ofB 32 t.capf <<< 3) ||| (ofB 32 t.capovr <<< 4)
    ||| (ofB 32 t.slpm <<< 5) ||| (ofB 32 t.tmrerr <<< 6)

/-- CTL; AUTO reads 0 in SERVICE, where it is clear. -/
def Timer.ctl (t : Timer) : Word :=
  (ofB 32 t.en <<< 31) ||| (ofB 32 t.sync <<< 30) ||| (ofB 32 t.auto <<< 29) ||| (ofB 32 t.ie <<< 28) ||| (ofB 32 t.pub <<< 27)
    ||| (BitVec.ofNat 32 t.seq.val <<< 24) ||| (t.pubch.setWidth 32 <<< 16) ||| t.pre.setWidth 32

/-- A W1C write of STAT. -/
def Timer.writeStat (t : Timer) (v : Word) : Timer :=
  { t with matched := t.matched && !bit v 0, missed := t.missed && !bit v 2, capovr := t.capovr && !bit v 4
           slpm := t.slpm && !bit v 5, tmrerr := t.tmrerr && !bit v 6 }

/-! ### CAP_READ (R309) -/

/-- A read of CAP low: CAPF clears and CAP[47:32] is latched. -/
def Timer.readCap (t : Timer) : Timer := { t with capf := false, capLatch := t.cap.extractLsb' 32 16 }

def State.answer (s : State) (v : Word) : State := { s with eng := { s.eng with rdata := v, hpErr := false } }

/-- CAP_READ. -/
def execCapRead (g : GalId) (t : Fin 8) (s : State) : Out State :=
  .next (if s.logicOn g then (s.answer ((s.timer g t).cap.setWidth 32)).modTimer g t Timer.readCap else s)

/-! ### Wake correction (R310) -/

/-- A running timer adds n increments at once, and its prescaler keeps r fc; a CMP passed matches once, with SLPM. -/
def Timer.wake (t : Timer) (n r : Nat) : Timer × Bool :=
  let d := (t.cmp - t.count).toNat
  let hit := decide (0 < d) && decide (d ≤ n)
  let t := { t with count := t.count + BitVec.ofNat 48 n, residue := r }
  if !hit then (t, false)
  else
    let t := { t.onMatch with slpm := true }
    ({ t with missed := t.missed || (t.auto && decide (2 ^ 47 ≤ (t.cmp - t.count).toNat)) }, true)

/-- The residue of a prescaler in fc: what it is known to have kept, and a free number of fc since, below PRE + 1 together. -/
def Timer.residueAt (t : Timer) (free : Nat) : Nat :=
  let p := t.pre.toNat + 1
  if t.residue < p then t.residue + free % (p - t.residue) else free % p

/-- The wake of a gallery's timers after `sclk` periods that the manual measures and the model leaves free (log 3): each
running timer adds floor((E × RATIO / 256 + r) / (PRE + 1)) increments, and the prescaler keeps the remainder. A match before
the sleep comes first. -/
def State.wakeTimers (s : State) (g : GalId) : State :=
  let e := Config.freeChoice s.freeCtr
  let s0 := s.fresh
  s0.each (List.finRange 8) fun s t =>
    if !(s.timer g t).en then s else
    let s := s.timerMatch g t
    let x := s.timer g t
    let fc := e * s.ev.ratio.toNat / 256 + x.residueAt (Config.freeChoice s.freeCtr)
    let (y, m) := x.wake (fc / (x.pre.toNat + 1)) (fc % (x.pre.toNat + 1))
    let s1 := (s.fresh.modTimer g t fun _ => y).tmrEdges s g
    if m && x.pub then s1.publish x.pubch 1 else s1

end Sys2Proof.Machine
end

