-- ==== Sys2Proof/Machine/Events.lean ====
section
/-!
DEFINITION. The event router's pins, subscriptions and LUT cells (R294, R295, R297 to R304), and the delivery of a count
(R293).
-/

namespace Sys2Proof.Machine

open Sys2Proof

/-! ### Subscription (R294) -/

/-- The named unit is absent, or the type is reserved. -/
def State.chsubAbsent (s : State) (v : Word) : Bool :=
  match chType v with
  | 1 => decide (8 * s.variant.ngal ≤ chUnit v)
  | 2 => decide (32 ≤ chUnit v)
  | 3 => decide (64 ≤ chUnit v)
  | 4 => decide (8 * s.variant.ngal ≤ chUnit v)
  | 5 => false
  | _ => true

/-- The named sequencer slot or LUT input is already valid: an entry names it. -/
def State.chsubTaken (s : State) (v : Word) : Bool :=
  s.ev.chsub.toList.any fun w =>
    chType w = chType v && chUnit w = chUnit v && ((chType v = 1 && chSlot w = chSlot v) || chType v = 5)

/-- The write is refused. -/
def State.chsubRefused (s : State) (n : Byte) (v : Word) : Bool :=
  chType v != 0 && (chType (s.chsub n) != 0 || s.chsubAbsent v || s.chsubTaken v)

/-- A slot as CHSUB leaves it: subscribed to a channel with nothing pending, or invalid. -/
def slotFor (ch : Option Byte) : EvSlot := match ch with | none => {} | some c => { v := true, ch := c }

/-- Sets the slot or input that an entry names (R294, R296). -/
def State.setConsumer (s : State) (sub : Word) (ch : Option Byte) : State :=
  let u := chUnit sub
  match chType sub with
  | 1 => s.modSeq (Fin.ofNat 128 u) fun x => { x with slots := x.slots.set (chSlot sub) (slotFor ch) }
  | 2 => { s with ev := { s.ev with mpSlots := s.ev.mpSlots.set (Fin.ofNat 32 u) (slotFor ch) } }
  | 5 =>
    let j : Fin 64 := Fin.ofNat 64 (u / 4)
    let c := s.ev.cells[j]
    let c' : Cell := { c with arrive := c.arrive.set (Fin.ofNat 4 (u % 4)) 0 }
    { s with ev := { s.ev with cells := s.ev.cells.set j c' } }
  | _ => s

/-- A write of CHSUBn: refused with SUBERR, or the old consumer's slot is invalidated with the counts in flight to it, and
the new one's is made valid. -/
def State.chsubWrite (s : State) (n : Byte) (v : Word) : State :=
  if s.chsubRefused n v then { s with ev := { s.ev with suberr := true } } else
  let s := s.setConsumer (s.chsub n) none
  let s := { s with ev := { s.ev with
    chsub := s.ev.chsub.set n.toNat (v &&& 0xF0FF0007), flight := s.ev.flight.filter fun e => e.1 != n } }
  s.setConsumer v (some n)

def execChsubWrite (n : Byte) (v : Word) (s : State) : Out State := .next (s.chsubWrite n v)

/-- The router rewrites the slots of a gallery's sequencers from the entries that name them (R295). -/
def State.rewriteSlots (s : State) (g : GalId) : State :=
  s.each (seqsOf g) fun s q => s.modSeq q fun x => { x with
    slots := Vector.ofFn fun i =>
      slotFor (((List.range 256).find? fun n =>
        let w := s.chsub (BitVec.ofNat 8 n)
        chType w = 1 && chUnit w = q.val && chSlot w = i).map fun n => BitVec.ofNat 8 n) }

/-- The pending counts of the slots that go with PD2g (R295). -/
def State.dropSlots (s : State) (g : GalId) : State :=
  let n : Nat := ((seqsOf g).map fun q => ((s.seq q).slots.toList.map fun e => if e.v then e.pend.toNat else 0).sum).sum
  (s.evDrop n).each (seqsOf g) fun s q => s.modSeq q fun x => { x with slots := Vector.replicate 8 {} }

/-! ### Event inputs (R297 to R299) -/

/-- The mode counts an edge to this level. -/
def EvIn.counts (x : EvIn) (level : Bool) : Bool := x.mode = 3 || (x.mode = 1 && level) || (x.mode = 2 && !level)
/-- The active level of RISE and FALL. -/
def EvIn.isActive (x : EvIn) : Bool := (x.mode = 1 && x.lvl) || (x.mode = 2 && !x.lvl)

def State.modIn (s : State) (i : Fin 64) (f : EvIn → EvIn) : State :=
  { s with ev := { s.ev with ins := s.ev.ins.set i (f s.ev.ins[i]) } }

/-- EVINCFG's status after LVL changes: STUCK clears when LVL returns inactive. -/
def EvIn.atLevel (x : EvIn) (level : Bool) : EvIn :=
  let y := { x with lvl := level }
  if y.isActive then y else { y with stuck := false, active := 0 }

/-- The stage takes one waiting edge of an input and publishes its count. -/
def State.takeEdge (s : State) (i : Fin 64) : State :=
  if s.ev.ins[i].edges = 0 then s
  else (s.modIn i fun x => { x with edges := x.edges - 1 }).publish s.ev.ins[i].ch 1

/-- k waiting edges are taken, one in each fc. -/
def State.takeEdges (s : State) (i : Fin 64) : Nat → State
  | 0 => s
  | k + 1 => (s.takeEdge i).takeEdges i k

/-- EVENT_INPUT_EDGE: LVL takes the level; a counted edge waits in the stage's counter, or is lost behind 15 waiting (R298). How many
of the waiting edges the stage has taken by then is free (log 49). -/
def State.inputEdge (s : State) (i : Fin 64) (level : Bool) : State :=
  let x := s.ev.ins[i]
  if x.lvl == level then s else
  let s := s.modIn i fun x => x.atLevel level
  if !x.counts level then s
  else if x.edges < 15 then
    ((s.modIn i fun x => { x with edges := x.edges + 1 }).fresh).takeEdges i (Config.freeChoice s.freeCtr % (x.edges + 2))
  else
    let s := s.modIn i fun x => { x with ovr := true }
    let s := { s with ev := { s.ev with pinerr := true } }
    if x.ovr then s else s.record 0x30 (recSrc 5 0 0xFF) .staged [BitVec.ofNat 8 i.val]

def execEventInputEdge (i : Fin 64) (level : Bool) (s : State) : Out State := .next (s.inputEdge i level)

/-- EVENT_INPUT_STUCK: active through STUCKT boundaries (R299). -/
def State.inputStuck (s : State) (i : Fin 64) : State :=
  let x := s.ev.ins[i]
  if x.isActive && x.stuckt != 0 && decide (x.stuckt.toNat ≤ x.active) && !x.stuck then
    let s := s.modIn i fun x => { x with stuck := true }
    ({ s with ev := { s.ev with pinerr := true } } : State).record 0x31 (recSrc 5 0 0xFF) .staged [BitVec.ofNat 8 i.val]
  else s

def execEventInputStuck (i : Fin 64) (s : State) : Out State := .next (s.inputStuck i)

/-! ### Delivery (R293) -/

/-- An input that publishes on a channel and has edges waiting. -/
def State.waitingEdge (s : State) (ch : Byte) : Option (Fin 64) :=
  (List.finRange 64).find? fun i => s.ev.ins[i].edges != 0 && s.ev.ins[i].ch == ch

/-- COUNT_DELIVERY: the oldest count in flight on a channel reaches its consumer; with none in flight, an edge that waits in an input
stage is taken first. -/
def State.countDelivery (s : State) (ch : Byte) : State :=
  let s := if s.ev.flying ch then s else match s.waitingEdge ch with | none => s | some i => s.takeEdge i
  match s.ev.flight.find? fun e => e.1 == ch with
  | none => s
  | some e =>
    let s := { s with ev := { s.ev with flight := s.ev.flight.erase e } }
    s.evDeliver (s.chsub ch) e.2.toNat

def execCountDelivery (ch : Byte) (s : State) : Out State := .next (s.countDelivery ch)

/-! ### Event outputs (R300) -/

/-- EVENT_OUTPUT_PULSE: one pending count becomes one pulse, high for PW fc and then low for PW fc. -/
def State.outputPulse (s : State) (i : Fin 64) : State :=
  let x := s.ev.outs[i]
  if !x.mode && x.pend != 0 then
    let y : EvOut := { x with pend := x.pend - 1, level := false, phases := [(true, x.pw), (false, x.pw)] }
    { s with ev := { s.ev with outs := s.ev.outs.set i y } }
  else s

def execEventOutputPulse (i : Fin 64) (s : State) : Out State := .next (s.outputPulse i)

/-! ### LUT cells (R301 to R304) -/

def Cell.cons (c : Cell) : Bool := bit c.ctl 7

/-- Another cell's output as registered at the end of the fc before: its output, or, where it has already been evaluated in this
fc, the one before that; which of the two holds is free (R301, log 49). -/
def Cell.registered (c : Cell) (own evaluated : Bool) : Bool := if c.before == c.out || own || !evaluated then c.out else c.before

/-- The value of input k of cell j. -/
def State.lutInput (s : State) (j : Fin 64) (k : Fin 4) : Bool :=
  let c := s.ev.cells[j]
  let sel := (c.sel.extractLsb' (8 * k.val) 8).toNat
  if sel < 64 then (s.ev.ins.toList.getD sel {}).lvl
  else if sel < 128 then (s.ev.cells.toList.getD (sel - 64) {}).registered (sel - 64 == j.val) (Config.evaluated s.freeCtr k.val)
  else if sel = 128 then c.arrive[k] != 0
  else false

/-- TT[i]. -/
def Cell.tt (c : Cell) (i : Nat) : Bool := bit c.ctl (16 + i)

/-- The new value of U (R302). -/
def Cell.flip (c : Cell) (x in3 : Bool) : Bool :=
  match (c.ctl.extractLsb' 3 2).toNat with
  | 0 => x
  | 1 => if in3 && !c.prevIn3 then x else c.u
  | 2 => if x && !c.prevX then !c.u else c.u
  | _ => if in3 then false else if x then true else c.u

/-- Filter length n. -/
def Cell.flt (c : Cell) : Nat := let f := (c.ctl.extractLsb' 0 3).toNat; if f = 0 then 0 else 2 ^ (f - 1)

/-- One fc of a cell that is not conserving: the cell and whether it publishes. -/
def Cell.evalPlain (c : Cell) (i0 i1 i2 i3 : Bool) : Cell × Nat :=
  let x := c.tt (i3.toNat * 8 + i2.toNat * 4 + i1.toNat * 2 + i0.toNat)
  let u := c.flip x i3
  let run := if u == c.u then Nat.min 64 (c.run + 1) else 1
  let f := if c.forced then false else if c.flt = 0 then u else if c.flt ≤ run then u else c.out
  let edge := (bit c.ctl 5 && f && !c.out) || (bit c.ctl 6 && !f && c.out)
  ({ c with u := u, prevX := x, prevIn3 := i3, run := run, out := f, arrive := Vector.replicate 4 0 },
    if edge && !c.forced then 1 else 0)

/-- One fc of a conserving cell (R303). -/
def Cell.evalCons (c : Cell) (i1 i2 i3 : Bool) : Cell × Nat :=
  let a := c.arrive[(0 : Fin 4)].toNat
  let g := c.tt (i3.toNat * 8 + i2.toNat * 4 + i1.toNat * 2 + 1)
  let avail := c.held + a
  let out := if g && !c.forced then Nat.min avail 3 else 0
  let held := Nat.min 65535 (avail - out)
  ({ c with
      held := held, out := held != 0 && !c.forced, cin := c.cin + BitVec.ofNat 32 a, cout := c.cout + BitVec.ofNat 32 out
      arrive := Vector.replicate 4 0 }, out)

/-- Pins in LUT mode follow a cell's output. -/
def State.drivePins (s : State) (j : Fin 64) (f : Bool) : State :=
  { s with ev := { s.ev with outs := s.ev.outs.map fun o => if o.mode && o.lut.toNat = j.val then { o with level := f } else o } }

/-- LUT_CELL_EVALUATION: one fc of cell j. -/
def State.lutEval (s : State) (j : Fin 64) : State :=
  let c := s.ev.cells[j]
  let i (k : Fin 4) := s.lutInput j k
  let (c', n) := if c.cons then c.evalCons (i 1) (i 2) (i 3) else c.evalPlain (i 0) (i 1) (i 2) (i 3)
  let s := ({ s with ev := { s.ev with cells := s.ev.cells.set j { c' with before := c.out } } } : State).fresh
  let s := if c'.out == c.out then s else s.drivePins j c'.out
  s.publish (c.ctl.extractLsb' 8 8) n

def execLutCellEvaluation (j : Fin 64) (s : State) : Out State := .next (s.lutEval j)

/-- A write of LUTCTL may clear CONS only while nothing is held. -/
def Cell.ctlRefused (c : Cell) (v : Word) : Bool := c.cons && !bit v 7 && c.held != 0

/-- LUTCTL as a write leaves it: setting CONS starts with nothing held, counted from there. -/
def Cell.writeCtl (c : Cell) (v : Word) : Cell :=
  if bit v 7 && !c.cons then { c with ctl := v, held := 0, cin := 0, cout := 0, adj := 0 } else { c with ctl := v }

/-- A write of LUTCTL (R304). -/
def State.lutctlWrite (s : State) (j : Fin 64) (v : Word) : State :=
  let c := s.ev.cells[j]
  if c.ctlRefused v then { s with ev := { s.ev with luterr := true } }
  else { s with ev := { s.ev with cells := s.ev.cells.set j (c.writeCtl v) } }

def execLutctlWrite (j : Fin 64) (v : Word) (s : State) : Out State := .next (s.lutctlWrite j v)

/-- LUTST (R303). -/
def Cell.lutst (c : Cell) : Word := (ofB 32 c.out <<< 31) ||| (ofB 32 c.forced <<< 30) ||| BitVec.ofNat 32 c.held

/-- A W1C write of LUTST: clearing FORCED releases the output. -/
def State.clearForced (s : State) (j : Fin 64) : State :=
  let c : Cell := s.ev.cells[j]
  let c' : Cell := { c with forced := false }
  { s with ev := { s.ev with cells := s.ev.cells.set j c' } }

/-! ### SCLKRATIO (R311) -/

/-- SCLKRATIO_REMEASURE: the measured ratio overwrites a written one. -/
def execSclkratioRemeasure (ratio : BitVec 24) (s : State) : Out State := .next { s with ev := { s.ev with ratio := ratio } }

end Sys2Proof.Machine
end

