-- ==== Sys2Proof/Machine/Gallery.lean ====
section
/-!
DEFINITION. Gallery states (R345 to R350): fence, gallery reset, power procedures with their domain handshakes (R346, R348,
R379), squeeze deadline, re-homing (R269) and release (R330, R401); the start of a gallery tick as a command.
-/

namespace Sys2Proof.Machine

open Sys2Proof

/-! ### States -/

/-- GSTATE changes; HIRQ.GALSVC where GALSVC does (R322, R345). -/
def State.setGState (s : State) (g : GalId) (st : GState) : State :=
  let was := s.serving g
  let s := s.modGal g fun x => { x with gstate := st }
  if was == s.serving g then s else s.hirq hirqGalsvc

/-- Codes of GSTATE (R329). -/
def GState.code : GState → Nat
  | .serving => 0
  | .squeezing => 1
  | .squeezed => 2
  | .fenced => 3
  | .off => 4
  | .retained => 5

/-- ENGST.STATE changes; HIRQ.STATE (R322, R341). -/
def State.setEng (s : State) (st : EngState) : State :=
  if s.eng.state == st then s else ({ s with eng := { s.eng with state := st } } : State).hirq hirqState

/-- RECOVERY from START, SERVICE or TEST (R344). -/
def State.recovery (s : State) : State :=
  match s.eng.state with
  | .start | .service | .test => s.setEng .recovery
  | _ => s

/-- Codes of ENGST.STATE (R36). -/
def EngState.code : EngState → Nat
  | .calib => 1
  | .init => 2
  | .load => 3
  | .start => 4
  | .service => 5
  | .recovery => 6
  | .test => 7

/-! ### Ledger recount of a gallery (R59, R60) -/

/-- The gallery's terms rebuilt from the units' own state. -/
def State.recountGal (s : State) (g : GalId) : State :=
  let x := s.gal g
  let w (n : Nat) : Word := BitVec.ofNat 32 n
  let sum (f : Bud → Nat) : Word := w ((seqsOf g).map fun q => f (s.seq q).bud).sum
  let mine (it : Item) : Bool := it.scope = g
  let items : Nat := (s.allSeqs.map fun q => ((s.seq q).running.toList ++ (s.seq q).prefetch.toList).countP mine).sum
    + s.work.heldItems.countP fun e => mine e.1
  s.modGal g fun y => { y with led :=
    ((((((Vector.replicate 26 (0 : Word)).set 0 (w x.md.rq)).set 4 (w x.md.rd)).set 8 (w x.md.wd)).set 14 (w x.md.tags.length)).set 16
      (sum fun b => b.tokleft)).set 17 (sum fun b => b.tdebt) |>.set 21 (w items) }

/-- The bank terms of a gallery. -/
def State.recountBanks (s : State) (g : GalId) : State :=
  { s with ledger := { s.ledger with owners := Vector.ofFn fun i => if i.val / 16 = g.val then 0 else s.ledger.owners[i] } }

/-! ### CTX_CLOSE that waits (R335) -/

/-- An entry that is not bound is freed and the reply of its CTX_CLOSE posts. -/
def State.freeNow (s : State) (c : Half) : State :=
  let s := s.retractCtx (s.ctxHome c) c
  let s := { s with work := { s.work with xfers := s.work.xfers.filter fun x => x.ctx != c } }
  (((s.closeCtxSession c).setCtxField c 0x10 4 0).setCtxField c 0x14 1 0).freeCtx c |>.closeReply c

/-- CTX_CLOSE commands whose context has come off its sequencer by another cause. -/
def State.closeSweep (s : State) : State :=
  s.each (s.mp.closing.map fun e => e.1) fun s c =>
    if s.ctxState c == ctxOPEN || s.ctxState c == ctxBROKEN then s.freeNow c else s

/-! ### Fence (R350) -/

/-- A sequencer held in reset; one that a microfault stopped stays so (R94). -/
def Seq.held (x : Seq) : Seq := { x.reset with run := if x.cs.mf then .mfault else .reset }

/-- One sequencer of a fenced gallery: products and pool operations are discarded, its items end. -/
def State.fenceSeq (s : State) (q : SeqId) : State :=
  let s := s.modSeq q fun x => { x with prods := [], pool := none }
  let s := (s.abandon q).breakLock q
  let s := s.dropRunning q stFAILED 0x07
  let s := s.dropPrefetch q 0x10
  s.modSeq q Seq.held

/-- Every outstanding tag of a gallery is orphaned, its transfer retired RETRACTED; waiting requests are withdrawn. -/
def State.orphanAll (s : State) (g : GalId) : State :=
  let s := s.retract g fun _ => true
  let s := s.retractLines g fun _ => true
  let s := s.releaseLines g fun _ => true
  s.modMd g fun m => { m with tags := m.tags.map fun t => { t with orphan := true, sump := true } }

/-- A fence of gallery g; it has no effect on one already FENCED, OFF or RETAINED. -/
def State.fence (s : State) (g : GalId) : State :=
  let x := s.gal g
  if x.gstate == .fenced || x.gstate == .off || x.gstate == .retained then s else
  let s := match x.squeeze with
    | none => s
    | some (m, _) => (s.modGal g fun x => { x with squeeze := none }).replyTo m mbFENCED
  let s := (s.setGState g .fenced).modGal g fun x => { x with deadleft := 0 }
  let s := s.each (seqsOf g) fun s q => s.fenceSeq q
  let s := (s.breakLocksAt g).orphanAll g
  ((s.recountGal g).recountBanks g).closeSweep

/-! ### Gallery reset (R353, R348, R378) -/

/-- Debug state of G0 lives in PD34 and survives; with HALTPWR0 its sequencers come out halted with WHY 7 (R378). -/
def Dbg.afterReset (d : Dbg) (keep halt : Bool) : Dbg :=
  let d : Dbg := if keep then { d with halted := false, defer := false, why := 0, defcnt := 0, steps := 0, bpSkip := false, ubSkip := false, rope := none } else {}
  if halt then { d with halted := true, why := 7 } else d

/-- One sequencer after a gallery reset: every register at its reset value, word 0 next once a set has been committed. -/
def Seq.galleryReset (x : Seq) (keepDbg halt keepStore : Bool) : Seq :=
  { store := if keepStore then x.store else {}, cs := if keepStore then { x.cs with mf := false, field := 0, cause := 0, uaddr := 0, ce := 0, mce := 0, ceaddr := 0 } else {}
    dbg := x.dbg.afterReset keepDbg halt
    run := if keepStore && x.store.valid then .word0 else .reset }

/-- The gallery registers after a gallery reset; the media channel, the timers, the phase and GSTATE are not among them. -/
def Gal.resetRegs (x : Gal) (keepMap : Bool) : Gal :=
  { x with
    lines := Vector.replicate 16 {}, owner := Vector.replicate 16 8, ret := 0, waking := ~~~x.awake
    sce := 0, sue := 0, rterr := 0, handerr := false, screaddr := 0, ctxbanks := 0, rtbase := 0, stimen := 0
    weight := 0x10, cut := false, slotRotor := 0, poolRotor := 0,
    rdRotor := Vector.replicate 16 0, wrRotor := Vector.replicate 16 0, mapver := if keepMap then x.mapver else 0, xtin := false }

/-- Tokens that go with a gallery's budget registers return, less the debts, so that the token invariant holds (R62). -/
def State.returnTokens (s : State) (g : GalId) : State :=
  s.each (seqsOf g) fun s q =>
    let b := (s.seq q).bud
    (s.modGal g fun x => { x with led := x.led.set 18 (x.led[18] + BitVec.ofNat 32 b.tokleft - BitVec.ofNat 32 b.tdebt) }).modSeq q
      fun x => { x with bud := { x.bud with tokleft := 0, tdebt := 0 } }

/-- A gallery reset: gallery logic and its sequencers; event slots are rewritten before word 0 issues (R295). -/
def State.galleryReset (s : State) (g : GalId) (keepStore : Bool) : State :=
  let s := s.each (seqsOf g) fun s q => (s.abandon q).breakLock q
  let s := s.releaseLines g fun _ => true
  let s := s.returnTokens g
  let s := s.each (seqsOf g) fun s q =>
    s.modSeq q fun x => x.galleryReset (g.val = 0 || bit s.aon.emu g.val) (g.val = 0 && s.aon.haltpwr0) keepStore
  let s := s.modGal g fun x => x.resetRegs keepStore
  s.rewriteSlots g

/-- Timers at reset values (R310). -/
def State.resetTimers (s : State) (g : GalId) : State := s.modGal g fun x => { x with timers := Vector.replicate 8 {} }

/-! ### Power domains (R346) -/

def State.pdOn (s : State) (d : Nat) : Bool := bit s.pd.on d
def State.setPd (s : State) (d : Nat) (req on : Bool) : State :=
  { s with pd := { s.pd with req := putBit s.pd.req d req, on := putBit s.pd.on d on } }

/-- The logic of a gallery loses power: sequencers, lines and slots are gone; locks on its words break (R169). `emu`: sleep
emulation keeps the domain up and its debug state (R379). -/
def State.logicOff (s : State) (g : GalId) (emu : Bool) : State :=
  let s := s.each (seqsOf g) fun s q => (s.abandon q).breakLock q
  let s := s.breakLocksAt g
  let s := (s.returnTokens g).dropSlots g
  let s := s.each (seqsOf g) fun s q => s.modSeq q fun x => x.galleryReset (g.val = 0 || emu) false false
  s.modGal g fun x => { x with lines := Vector.replicate 16 {} }

/-- Zero data with valid check bits in a gallery's scratch (R342). -/
def State.initScratch (s : State) (g : GalId) : State :=
  let a := scratchAddr g 0
  let inside (x : Nat) : Bool := decide (a ≤ x) && decide (x < a + 0x100000)
  let s := { s with
    mem := s.mem.filter fun e => !inside e.1
    ecc := { ce := s.ecc.ce.filter fun c => !inside c, ue := s.ecc.ue.filter fun c => !inside c
             found := s.ecc.found.filter fun c => !inside c, wb := s.ecc.wb.filter fun c => !inside c } }
  s.modGal g fun x => { x with awake := 0xFFFF, waking := 0 }

/-- The procedure ends with its reply (R348). -/
def State.powerEnd (s : State) (g : GalId) (status : Byte) : State :=
  match (s.gal g).power with
  | none => s
  | some (_, m) => (s.modGal g fun x => { x with power := none }).replyTo m status

def State.powerAt (s : State) (g : GalId) (p : PowerStep) : State :=
  s.modGal g fun x => { x with power := x.power.map fun e => (p, e.2) }

/-- Lowers the logic domain, unless sleep emulation leaves it raised (R379). -/
def State.lowerLogic (s : State) (g : GalId) (retain : Bool) : State :=
  let s := s.logicOff g (bit s.aon.emu g.val)
  if bit s.aon.emu g.val then s.powerEnd g mbOK
  else (s.setPd (2 * g.val) false false).powerAt g (.lowerLogic retain)

/-- The gallery's tags are free or orphaned and it has no fabric request outstanding (R348 step 1). -/
def State.drained (s : State) (g : GalId) : Bool :=
  (s.gal g).md.tags.all (fun t => t.orphan) && (s.gal g).md.waiting.isEmpty && (seqsOf g).all fun q => (s.seq q).mic.fab.isNone

/-- RETAIN step 2 ends with AWAKE = 0. -/
def State.retainDone (s : State) (g : GalId) : State :=
  if (s.gal g).awake != 0 then s
  else ((s.setGState g .retained).modGal g fun x => { x with deadleft := 0 }).lowerLogic g true

/-- A procedure goes on where nothing holds it any more. -/
def State.powerAdvance (s : State) (g : GalId) : State :=
  match (s.gal g).power with
  | some (.drain false, _) =>
    if s.drained g then ((s.setGState g .off).modGal g fun x => { x with deadleft := 0 }).lowerLogic g false else s
  | some (.drain true, _) =>
    if s.drained g then
      ((s.modGal g fun x => { x with owner := Vector.replicate 16 8, ret := 0xFFFF }).powerAt g .retention).retainDone g
    else s
  | some (.retention, _) => s.retainDone g
  | _ => s

/-- ON steps 3 and 4: gallery reset with CSVER = 0; the timers' registers and their wake correction (R310). -/
def State.powerUp (s : State) (g : GalId) (retained : Bool) : State :=
  let s := s.galleryReset g false
  let s := if s.variant.aotmr then s else if retained then s.wakeTimers g else s.resetTimers g
  (s.setGState g .squeezed).powerEnd g mbOK

/-- A BISTFAIL record: the domain and its failing memory. -/
def State.bistRecord (s : State) (d : Nat) : State :=
  s.record 6 (recSrc 4 0 0xFF) .important ([BitVec.ofNat 8 d, 0] ++ leBytes 2 (Config.bistMemory d).toNat)

/-- A gallery failed BIST: its domains are lowered, and it is left OFF (R343). -/
def State.bistGallery (s : State) (g : GalId) : State :=
  let d := 2 * g.val + Config.freeChoice s.freeCtr % 2
  let s := (s.fresh.setPd (2 * g.val) false false).setPd (2 * g.val + 1) false false
  (s.modGal g fun x => { x with gstate := .off }).bistRecord d

/-- ON after the scratch domain has power: contents initialised, or kept with every RET bit clear; then the logic domain. In
TEST memory BIST runs in place of plain initialisation; a failure leaves the gallery OFF and answers TIMEOUT (log 87). -/
def State.scratchUp (s : State) (g : GalId) : State :=
  let retained := (s.gal g).gstate == .retained
  if !retained && s.eng.state == .test && Config.bistFails s.freeCtr then (s.bistGallery g).powerEnd g mbTIMEOUT else
  let s := if retained then s.modGal g fun x => { x with ret := 0 } else s.initScratch g
  if s.pdOn (2 * g.val) then s.powerUp g retained
  else (s.setPd (2 * g.val) true false).powerAt g .raiseLogic

/-- ON step 1. -/
def State.powerOnStart (s : State) (g : GalId) : State :=
  if s.pdOn (2 * g.val + 1) then s.scratchUp g
  else (s.setPd (2 * g.val + 1) true false).powerAt g .raiseScratch

/-- What a lowered domain's acknowledgement brings. -/
def State.loweredAck (s : State) (g : GalId) (d : Nat) : State :=
  match (s.gal g).power with
  | some (.lowerLogic retain, _) =>
    if d ≠ 2 * g.val then s
    else if retain then s.powerEnd g mbOK
    else (s.setPd (2 * g.val + 1) false false).powerAt g .lowerScratch
  | some (.lowerScratch, _) => if d = 2 * g.val + 1 then (s.initScratch g).powerEnd g mbOK else s
  | _ => s

/-- What a raised domain's acknowledgement brings; once last light has closed, only the return of power raises any (R355, R358). -/
def State.raisedAck (s : State) (g : GalId) (d : Nat) : State :=
  if s.pd.closed then
    if d = 2 * g.val ∧ s.pd.awaited.contains g then
      let s := { s with pd := { s.pd with awaited := s.pd.awaited.filter (· != g) } }
      (s.setPd d true true).galleryReset g false
    else s
  else match (s.gal g).power with
  | some (.raiseScratch, _) => if d = 2 * g.val + 1 then (s.setPd d true true).scratchUp g else s
  | some (.raiseLogic, _) =>
    if d = 2 * g.val then (s.setPd d true true).powerUp g ((s.gal g).gstate == .retained) else s
  | _ => s

/-- The order in which CALIB raises the domains (R341). -/
def State.raiseOrder (s : State) : List Nat :=
  (List.range 8).map (· + 32) ++ s.galleries.flatMap fun g => [2 * g.val + 1, 2 * g.val]

/-- CALIB asks for the next domain that is off. -/
def State.raiseNext (s : State) : State :=
  match s.raiseOrder.find? fun d => !s.pdOn d with
  | none => s
  | some d => s.setPd d true false

/-- PD_ACK (R346): the domain is reset and released from isolation, or has lost its supply. -/
def State.pdAck (s : State) (d : Nat) (level : Bool) : State :=
  if level && bit s.pd.req d && !s.pdOn d then
    if s.eng.state == .calib then if s.pd.failed then s else (s.setPd d true true).raiseNext
    else s.each s.galleries fun s g => s.raisedAck g d
  else if !level && !bit s.pd.req d then s.each s.galleries fun s g => s.loweredAck g d
  else s

/-- A gallery's procedure, or the return of power, waits for this domain. -/
def State.awaits (s : State) (g : GalId) (d : Nat) : Bool :=
  (s.pd.awaited.contains g && d == 2 * g.val) ||
  match (s.gal g).power with
  | some (.lowerLogic _, _) | some (.raiseLogic, _) => d = 2 * g.val
  | some (.lowerScratch, _) | some (.raiseScratch, _) => d = 2 * g.val + 1
  | _ => false

/-- A gallery is left OFF after a domain timeout: its domains are off and isolated (R346, R348), its requests low (log 88). -/
def State.timedOff (s : State) (g : GalId) : State :=
  let s := (s.setPd (2 * g.val) false false).setPd (2 * g.val + 1) false false
  let s := { s with pd := { s.pd with
    awaited := s.pd.awaited.filter (· != g)
    restore := if s.pd.awaited.contains g then s.pd.restore.filter (· != g) else s.pd.restore } }
  (s.setGState g .off).powerEnd g mbTIMEOUT

/-- PD_ACK_TIMEOUT (R346, R343, R348): PDERR; the domain is treated as off; CALIB goes no further; a procedure that waits for it
ends with the gallery OFF and answers TIMEOUT. -/
def State.pdTimeout (s : State) (d : Nat) : State :=
  let calib := s.eng.state == .calib && bit s.pd.req d && !s.pdOn d
  let who := s.galleries.filter fun g => s.awaits g d
  if !calib && who.isEmpty then s else
  let s := { s with pd := { s.pd with pderr := true, errpd := BitVec.ofNat 6 d, failed := s.pd.failed || calib } }
  s.each who State.timedOff

/-! ### Squeeze (R349) -/

/-- Step 1: SQUEEZING with its deadline; prefetched items return; vector 21 in every sequencer. -/
def State.squeezeStart (s : State) (g : GalId) (deadline : Half) (m : Option MbId) : State :=
  let returned : Nat := (seqsOf g).countP fun q => (s.seq q).prefetch.isSome
  let running : Nat := (seqsOf g).countP fun q => (s.seq q).running.isSome
  let s := (s.setGState g .squeezing).modGal g fun x => { x with
    deadleft := deadline, squeeze := some (m, running, 0, 0, returned) }
  s.each (seqsOf g) fun s q => (s.dropPrefetch q 0x17).irq q 5

/-- SQUEEZE_DEADLINE (step 3): unbind requests; a halted sequencer's context is saved by the MP (R370). -/
def State.squeezeDeadline (s : State) (g : GalId) : State :=
  let x := s.gal g
  if x.gstate != .squeezing || x.deadleft != 0 || s.pd.active then s else
  let s := s.each (seqsOf g) fun s q =>
    let y := s.seq q
    if y.running.isNone || y.unbind.isSome then s
    else if y.dbg.halted then s.preempt q
    else s.modSeq q fun y => { y with unbind := some .squeeze, ticks := true }
  s.squeezeCheck g

def execSqueezeDeadline (g : GalId) (s : State) : Out State := .next (s.squeezeDeadline g)

/-! ### Work slots (R280) -/

/-- Sequencers of a gallery whose prefetch slot is empty (R279), but one whose runtime block failed, which accepts no work
(R262). -/
def State.emptySlots (s : State) (g : GalId) : List (Fin 8) :=
  (List.finRange 8).filter fun i =>
    let x := s.seq (seqId g i)
    x.prefetch.isNone && !bit (s.gal g).rterr i.val

/-- The slot for an item (R280, R398): one whose sequencer has no running item first, by the gallery slot rotor. -/
def State.pickSlot (s : State) (g : GalId) : Option (Fin 8) :=
  let free := s.emptySlots g
  let idle := free.filter fun i => (s.seq (seqId g i)).running.isNone
  let from_ := if idle.isEmpty then free else idle
  ((List.range 8).map fun k => (Fin.ofNat 8 ((s.gal g).slotRotor.val + k) : Fin 8)).find? fun i => from_.contains i

/-- An item lands in a slot: the rotor moves on, vector 19 is raised (R280, R398). -/
def State.landSlot (s : State) (g : GalId) (i : Fin 8) : State :=
  (s.modGal g fun x => { x with slotRotor := Fin.ofNat 8 (i.val + 1) }).irq (seqId g i) 3

/-- An item enters a prefetch slot: SLOTRET ends, with EARLY the read of a spilled context begins (R336), and an idle sequencer
binds it. -/
def State.slotIn (s : State) (g : GalId) (i : Fin 8) (it : Item) : State :=
  let q := seqId g i
  let s := (s.modSeq q fun x => { x with prefetch := some it, cond := { x.cond with slotret := false } }).landSlot g i
  let s := if (s.gal g).early then (s.makeResident it.ctx).getD s else s
  s.idleBind q

/-! ### Re-homing (R269) -/

/-- Ranges of a gallery's scratch that hold the runtime area, context slots and program objects. -/
def State.keptRanges (s : State) (g : GalId) : List (Nat × Nat) :=
  (0, 0x2000) :: ((List.finRange 16).filterMap fun b =>
    if bit (s.gal g).ctxbanks b.val then some (b.val * 0x10000, 0x10000) else none)
  ++ s.mp.progs.filterMap fun p => if p.gal = g then some (p.off, p.size) else none

/-- Program copies of the segments in a context's image. -/
def imgSeg (img : List Byte) (i : Nat) : Desc := BitVec.ofNat 128 (imgNat img (0x80 + 16 * i) 16)

/-- The private scratch segments of an image (R269 step 3): number, gallery offset, bytes. -/
def privateSegs (img : List Byte) (g : GalId) : List (Nat × Nat × Nat) :=
  (List.range 8).filterMap fun i =>
    let d := imgSeg img i
    let a := Desc.first d
    if 1 ≤ Desc.typ d ∧ Desc.typ d ≤ 3 ∧ scratchAddr g 0 ≤ a ∧ a < scratchAddr g 0 + 0x100000 then
      some (i, a - scratchAddr g 0, Desc.extent d + 1)
    else none

/-- Ranges that the private segments of the contexts homed on a gallery take. -/
def State.privateRanges (s : State) (g : GalId) : List (Nat × Nat) :=
  (s.ctxListed.filter fun c => s.ctxHome c = g && !s.ctxFlag c 2).flatMap fun c =>
    (privateSegs (s.mem.readBytes (s.ctxImageAddr c) 256) g).map fun e => (e.2.1, e.2.2)

def overlaps (a n : Nat) (r : Nat × Nat) : Bool := decide (a < r.1 + r.2) && decide (r.1 < a + n)

/-- Places of n bytes in a gallery's scratch, aligned to `al`, that avoid the given ranges. -/
def placesFor (used : List (Nat × Nat)) (n al : Nat) : List Nat :=
  (List.range (0x100000 / al)).filterMap fun k =>
    if k * al + n ≤ 0x100000 ∧ !(used.any fun r => overlaps (k * al) n r) then some (k * al) else none

/-- Chooses a place for each private segment; none where one has no room. -/
def State.placeSegs (s : State) (used : List (Nat × Nat)) : List (Nat × Nat × Nat) → Option (List (Nat × Nat × Nat × Nat) × State)
  | [] => some ([], s)
  | (i, off, n) :: rest =>
    (s.choose (placesFor used n 16)).bind fun r =>
      (State.placeSegs r.2 ((r.1, n) :: used) rest).map fun t => ((i, off, n, r.1) :: t.1, t.2)

/-- The spill region of an image; none where SPILL is 0 (R266). -/
def spillOf (img : List Byte) : Option Nat :=
  let v := imgNat img 0x78 8 % 2 ^ 40
  if v = 0 then none else some (v * 4096)

/-- Held items whose context has a home again take empty slots there (step 6); they wait while the MP warm-resets (R354). -/
def State.placeHeld (s : State) (g : GalId) : State :=
  if s.eng.mpbusy then s else
  s.each (s.work.heldItems.filter fun e =>
      s.ctxHome e.1.ctx = g && s.ctxState e.1.ctx == ctxPARKED && s.serving g) fun s e =>
    match s.pickSlot g with
    | none => s
    | some i => ({ s with work := { s.work with heldItems := s.work.heldItems.filter fun x => x.1.ctx != e.1.ctx } } : State).slotIn g i e.1

/-- The MP's transfer of a command on a gallery's channel: its request, and its answer or its timeout. -/
def State.mpAnswered (s : State) (g : GalId) (write : Bool) (addr len : Nat) (x : MpXfer) : State :=
  match x with
  | .ok | .failed _ => s.mpTransfer g write addr len
  | .timedOut tag => s.mpTimeout g write addr len tag

/-- The outcome code of a transfer that did not end OK: 0x3 for a timeout (R402). -/
def xferBad : MpXfer → Option Nat
  | .ok => none
  | .failed code => some code.toNat
  | .timedOut _ => some 3

/-- Counts a context of a squeeze as moved or left, and sees whether the squeeze ends. -/
def State.movedOne (s : State) (g : GalId) (left : Bool) : State :=
  (s.modGal g fun x => { x with squeeze := x.squeeze.map fun (m, n, a, b, r) =>
    if left then (m, n, a, b + 1, r) else (m, n, a + 1, b, r) }).squeezeCheck g

/-- Step 4 where no gallery has room. -/
def State.leaveHomeless (s : State) (g : GalId) (c : Half) : State :=
  if s.ctxFlag c 2 then s else (s.setCtxFlag c 2 true).movedOne g true

/-- A transfer of the MP failed (R402): GAL_SQUEEZE stops and answers TIMEOUT with the outcome code. -/
def State.squeezeFailed (s : State) (g : GalId) (code : Nat) : State :=
  match (s.gal g).squeeze with
  | none => s
  | some (m, _) => ((s.modGal g fun x => { x with squeeze := none }).setGState g .squeezed).replyTo m mbTIMEOUT code

/-- A failed write of the save area breaks the context; its held item ends FAILED(BROKEN) (R402). -/
def State.breakCtx (s : State) (c : Half) : State :=
  let s := s.setCtxState c ctxBROKEN
  let its := s.work.heldItems.filter fun e => e.1.ctx == c
  let s := { s with work := { s.work with heldItems := s.work.heldItems.filter fun e => e.1.ctx != c } }
  s.each its fun s e => s.finishItem e.1 stFAILED 0x04 0 e.1.ran

/-- Steps 4 to 6 into gallery h. -/
def State.moveTo (s : State) (g h : GalId) (c : Half) : State :=
  let save := s.ctxSave c
  let img := s.mem.readBytes save 256
  let segs := privateSegs img g
  match if segs.isEmpty then some (0, s) else (spillOf img).map fun a => (a, s) with
  | none => s.leaveHomeless g c
  | some (spill, s) =>
    match s.placeSegs (s.keptRanges h ++ s.privateRanges h) segs with
    | none => s.leaveHomeless g c
    | some (l, s) =>
      let s := s.each l fun s (i, off, n, o) =>
        let (s, bs) := s.mpRead h (spill + off) n
        (s.store (scratchAddr h o) bs).mpWrite g (save + 0x80 + 16 * i) (leBytes 6 (scratchAddr h o / 16))
      let held := s.work.heldItems.any fun e => e.1.ctx == c
      let was := s.ctxFlag c 2
      let s := (s.setCtxField c 2 1 h.val).setCtxFlag c 2 false
      let s := s.setCtxState c (if held then ctxPARKED else ctxOPEN)
      (if was then s else s.movedOne g false).placeHeld h

/-- Steps 1 to 3: HOMING, the resident copy written back, private segments spilled. -/
def State.spillOut (s : State) (g : GalId) (c : Half) : State :=
  let s := s.setCtxState c ctxHOMING
  let s := if s.ctxFlag c 0 then s.evict c else s
  let img := s.mem.readBytes (s.ctxSave c) 256
  match spillOf img with
  | none => s
  | some a => s.each (privateSegs img g) fun s (_, off, n) =>
    let (s, bs) := s.scratchRead (scratchAddr g off) n
    s.mpWrite g (a + off) bs

/-- A context that the MP may re-home: its gallery is past a squeeze deadline, squeezed or fenced, or it waits NOHOME. -/
def State.mayMove (s : State) (c : Half) : Bool :=
  let x := s.gal (s.ctxHome c)
  let st := s.ctxState c
  (st == ctxOPEN || st == ctxPARKED || st == ctxHOMING) && !s.eng.mpbusy && !s.pd.active && s.present (s.ctxHome c)
    && (s.ctxFlag c 2 || x.gstate == .squeezed || x.gstate == .fenced || (x.gstate == .squeezing && x.deadleft == 0))

/-- REHOMING of a context to gallery h, or to none where no gallery has room. -/
def State.rehome (s : State) (c : Half) (h : Option GalId) (x : MpXfer) : State :=
  if !s.mayMove c then s else
  let g := s.ctxHome c
  let waits := s.ctxFlag c 2
  let dirty := s.ctxFlag c 0 && s.ctxFlag c 1
  match xferBad x with
  | some code =>
    let s := s.mpAnswered g dirty (s.ctxSave c) 256 x
    if dirty then ((s.setCtxState c ctxHOMING).breakCtx c).squeezeFailed g code
    else if (privateSegs (s.mem.readBytes (s.ctxImageAddr c) 256) g).isEmpty then s
    else ((s.setCtxState c ctxHOMING).leaveHomeless g c).squeezeFailed g code
  | none =>
    let s := if waits then s else s.spillOut g c
    match h with
    | none => s.leaveHomeless g c
    | some h => if s.serving h then s.moveTo g h c else s.leaveHomeless g c

def execRehoming (ctx : Half) (h : Option GalId) (x : MpXfer) (s : State) : Out State := .next (s.rehome ctx h x)

/-! ### Runtime area and release (R330, R401) -/

def mkDesc (base limit typ rights : Nat) : Desc := BitVec.ofNat 128 (base / 16 + limit * 2 ^ 48 + typ * 2 ^ 64 + rights * 2 ^ 68)

/-- The runtime block of Q<q> (R401): S0 type 1, X, R, P; S7 type 3, R, W, P. -/
def runtimeBlock (g : GalId) (q : Fin 8) : List Byte :=
  leBytes 16 (mkDesc (scratchAddr g 0x0A00) 0x15FF 1 0xD).toNat
    ++ leBytes 16 (mkDesc (scratchAddr g (0x0200 + q.val * 0x100)) 0x00FF 3 0xB).toNat
    ++ leBytes 2 0x0100 ++ leBytes 2 0 ++ List.replicate 28 0

/-- A write of RTBASE: sequencers that wait for their block try it again (R262). -/
def State.setRtbase (s : State) (g : GalId) (v : Word) : State :=
  let s := s.modGal g fun x => { x with rtbase := v &&& 0x000FFFC0 }
  s.each (seqsOf g) fun s q => s.modSeq q fun x => { x with run := if x.run == .rtWait then .word0 else x.run }

/-- The MP writes the runtime blocks, the runtime code and RTBASE. -/
def State.writeRuntime (s : State) (g : GalId) : State :=
  let s := s.store (scratchAddr g 0) ((List.finRange 8).flatMap fun q => runtimeBlock g q)
  let s := s.store (scratchAddr g 0x0A00) ((List.range 0x1600).map Config.runtimeCode)
  s.setRtbase g 0

/-- GAL_RELEASE's effect: runtime area, then GALSVC; a sequencer held in reset starts at word 0. -/
def State.releaseGal (s : State) (g : GalId) : State :=
  let s := s.writeRuntime g
  let s := s.each (seqsOf g) fun s q => s.modSeq q fun x => { x with
    run := if (x.run == .reset || x.run == .stopped) && x.store.valid then .word0 else x.run }
  s.setGState g .serving

/-! ### GALLERY_TICK_START -/

/-- GALLERY_TICK_START (R44, R53): the tick, then the procedures and the held work that it lets go on. -/
def execGalleryTickStart (g : GalId) (s : State) : Out State :=
  .next (((s.galleryTick g).closeSweep.powerAdvance g).placeHeld g)

end Sys2Proof.Machine
end

