-- ==== Sys2Proof/Machine/Ledger.lean ====
section
/-!
DEFINITION. The ledger: the audit of a snapshot and what a mismatch does (R58, R59), the self-fault and the recount (R60),
maintenance writes and REARM (R61).
-/

namespace Sys2Proof.Machine

open Sys2Proof

/-! ### Containment (R59) -/

/-- The gallery that a mismatch names: its scope, or the gallery of its bank. -/
def badGal (code scope : Nat) : Option GalId :=
  if code = 7 then some (Fin.ofNat 16 (scope / 16))
  else if code = 6 ∨ code = 9 then none
  else some (Fin.ofNat 16 scope)

/-- A conserving cell's output is forced to 0. -/
def State.forceCell (s : State) (j : Fin 64) : State :=
  let c : Cell := s.ev.cells[j]
  let c' : Cell := { c with forced := true, out := false }
  ({ s with ev := { s.ev with cells := s.ev.cells.set j c' } } : State).drivePins j false

/-- Step 3, and the recount of the fenced gallery's terms, its banks' among them, from the units' own state: also where the
gallery was FENCED before, so that it balances from the next audit. -/
def State.containMismatch (s : State) (code scope : Nat) : State :=
  if code = 6 then s.recovery
  else if code = 9 then s.forceCell (Fin.ofNat 64 scope)
  else match badGal code scope with
    | none => s
    | some g => ((s.fence g).recountGal g).recountBanks g

/-- One mismatch: the LEDGER record, LEDGST, containment, HIRQ.LEDGER. -/
def State.mismatch (s : State) (code scope : Nat) (d : Word) : State :=
  let g := ((badGal code scope).map fun g => g.val).getD 0
  let s := s.record 1 (recSrc 2 g 0xFF) .important
    ([BitVec.ofNat 8 code, BitVec.ofNat 8 scope] ++ leBytes 4 d.toNat ++ leBytes 6 s.plant.ticknum.toNat)
  let s := { s with ledger := { s.ledger with mismatch := true, qty := BitVec.ofNat 4 code, scope := BitVec.ofNat 8 scope } }
  (s.containMismatch code scope).hirq hirqLedger

/-! ### Self-fault (R60) -/

def State.ledgerSelfFault (s : State) : State :=
  let s := { s with ledger := { s.ledger with recount := true, armed := false, haveSnap := false, snap := [] } }
  s.recovery

/-- Galleries that the failures of a snapshot name, each once. -/
def badGalleries (bad : List (Nat × Nat × Word)) : List GalId := (bad.filterMap fun e => badGal e.1 e.2.1).dedup

/-! ### LEDGER_AUDIT (R58) -/

/-- The end of an audit: LEDGTICK and the galleries that failed it. -/
def State.auditDone (s : State) (bad : List GalId) : State :=
  { s with ledger := { s.ledger with tick := s.ledger.snapTick, haveSnap := false, snap := [], lastBad := bad } }

/-- The ledger's storage as the audit finds it: a single-bit error is corrected and counted, an uncorrectable one is a
self-fault. -/
def State.auditStorage (s : State) : State :=
  let l := s.ledger
  { s with ledger := { l with
      ce := if l.storeCe then satInc8 l.ce else l.ce, ue := l.ue || l.storeUe, storeCe := false, storeUe := false } }

/-- LEDGER_AUDIT: the snapshot of the last boundary is evaluated; audits are suspended by MAINT and RECOUNT. -/
def State.ledgerAudit (s : State) : State :=
  let l := s.ledger
  if !l.haveSnap || !l.armed || l.maint || l.recount then s else
  let s := s.auditStorage
  let bad := badGalleries l.snap
  if l.storeUe then s.ledgerSelfFault
  else if 4 ≤ bad.length then (s.auditDone bad).ledgerSelfFault
  else (s.each l.snap fun s e => s.mismatch e.1 e.2.1 e.2.2).auditDone bad

def execLedgerAudit (s : State) : Out State := .next s.ledgerAudit

/-! ### LEDGER_RECOUNT (R60) -/

/-- The audits' states: START, SERVICE, RECOVERY and TEST (R62). -/
def State.operating (s : State) : Bool :=
  s.eng.state == .start || s.eng.state == .service || s.eng.state == .recovery || s.eng.state == .test

/-- Every term rebuilt from the units' own state. -/
def State.recountAll (s : State) : State :=
  let s := s.each s.galleries fun s g => s.recountGal g
  let s := s.each s.galleries fun s g => s.recountBanks g
  let resv : Vector Word 4 := #v[0, 0, BitVec.ofNat 32 s.resvHeld, 0]
  let cell (c : Cell) : Cell := { c with cin := BitVec.ofNat 32 c.held, cout := 0, adj := 0 }
  { s with ledger := { s.ledger with resv := resv }, ev := { s.ev with cells := s.ev.cells.map cell } }

/-- The recount ends: RECOUNT clears, audits run. -/
def State.ledgerRecount (s : State) : State :=
  if !s.ledger.recount || !s.operating then s else
  let s := s.recountAll
  { s with ledger := { s.ledger with
      recount := false, armed := !s.ledger.maint, haveSnap := false, snap := [], lastBad := [] } }

def execLedgerRecount (s : State) : Out State := .next s.ledgerRecount

/-! ### LEDGVAL and REARM (R61) -/

/-- Adds a difference to the stored part of a term. -/
def State.addTerm (s : State) (code scope term : Nat) (d : Word) : State :=
  match ledBase code with
  | some (b, n) =>
    if term < n ∧ scope < 16 then
      s.modGal (Fin.ofNat 16 scope) fun x => { x with led := x.led.setIfInBounds (b + term) (x.led.toList.getD (b + term) 0 + d) }
    else s
  | none =>
    match code with
    | 6 => { s with ledger := { s.ledger with
        resv := s.ledger.resv.setIfInBounds term (s.ledger.resv.toList.getD term 0 + d) } }
    | 7 =>
      if term = 0 then { s with ledger := { s.ledger with
        owners := s.ledger.owners.setIfInBounds scope (s.ledger.owners.toList.getD scope 0 + d) } }
      else s
    | 9 =>
      let c : Cell := s.ev.cells.toList.getD scope {}
      let c' : Cell := if term = 0 then { c with cin := c.cin + d }
        else if term = 1 then { c with cout := c.cout + d }
        else if term = 2 then { c with adj := c.adj + d } else c
      { s with ev := { s.ev with cells := s.ev.cells.setIfInBounds scope c' } }
    | _ => s

/-- The term that LEDGSEL selects: quantity, scope, term. -/
def Ledger.selected (l : Ledger) : Nat × Nat × Nat :=
  ((l.sel.extractLsb' 16 4).toNat, (l.sel.extractLsb' 8 8).toNat, (l.sel.extractLsb' 0 4).toNat)

/-- LEDGVAL as read: the live value of the selected term. -/
def State.ledgval (s : State) : Word := let (c, sc, t) := s.ledger.selected; (s.ledTerm c sc t).getD 0

/-- LEDGVAL_WRITE: a maintenance write in START, TEST and RECOVERY; MAINTERR in every other state. -/
def State.ledgvalWrite (s : State) (v : Word) : State :=
  if s.eng.state == .start || s.eng.state == .test || s.eng.state == .recovery then
    let (c, sc, t) := s.ledger.selected
    let s := if (s.ledTerm c sc t).isSome then s.addTerm c sc t (v - s.ledgval) else s
    { s with ledger := { s.ledger with maint := true, armed := false } }
  else { s with ledger := { s.ledger with mainterr := true } }

def execLedgvalWrite (v : Word) (s : State) : Out State := .next (s.ledgvalWrite v)

/-- REARM: MAINT clears and a recount starts; the engine state stays. -/
def State.rearm (s : State) : State :=
  { s with ledger := { s.ledger with maint := false, recount := true, armed := false, haveSnap := false, snap := [] } }

def execRearm (s : State) : Out State := .next s.rearm

/-- LEDGST. -/
def Ledger.ledgst (l : Ledger) : Word :=
  (l.ce.setWidth 32 <<< 24) ||| (l.scope.setWidth 32 <<< 16) ||| (l.qty.setWidth 32 <<< 12) ||| (ofB 32 l.mainterr <<< 6)
    ||| (ofB 32 l.ue <<< 5) ||| (ofB 32 l.mismatch <<< 4) ||| (ofB 32 l.maint <<< 3) ||| (ofB 32 l.recount <<< 2)
    ||| ofB 32 l.armed

end Sys2Proof.Machine
end

