-- ==== Sys2Proof/Machine/Image.lean ====
section
/-!
DEFINITION. Control stores and dispatch maps as a set of image parts gives them (R93, R97 to R99), the comparator's answer
for the MP (R103, R290), a commit (R108, R113), and the scrub's rewrites (R114, R115).
-/

namespace Sys2Proof.Machine

open Sys2Proof

/-! ### What a set holds -/

/-- Word a of a part; words the part does not hold are zero (R108). -/
def ImgPart.word (p : ImgPart) (a : Nat) : MicroWord :=
  if p.boot then Config.bootWord a else if a < p.first then 0 else p.words.getD (a - p.first) 0

/-- Entry i of a part; absent entries are 0x000. -/
def ImgPart.entry (p : ImgPart) (i : Nat) : BitVec 12 :=
  if p.boot then Config.bootMapEntry i else if i < p.first then 0 else p.entries.getD (i - p.first) 0

/-- Map entries that the licensee image owns (R97). -/
def licEntry (i : Nat) : Bool := (0x60 ≤ i && i ≤ 0x6F) || (0x80 ≤ i && i ≤ 0xFF) || (0x3C0 ≤ i && i ≤ 0x3FF)

def ImgSet.word (m : ImgSet) (a : Nat) : MicroWord :=
  ((if a < 0xC00 then m.af else m.lic).map fun p => p.word a).getD 0

def ImgSet.entry (m : ImgSet) (i : Nat) : BitVec 12 :=
  ((if licEntry i then m.licmap else m.afmap).map fun p => p.entry i).getD 0

/-- Control-store word a as it stands. -/
def Store.word (t : Store) (a : Nat) : MicroWord :=
  match t.overW.find? fun e => e.1 = a with
  | some e => e.2
  | none => t.set.word a

/-- Dispatch-map entry i as it stands. -/
def Store.entry (t : Store) (i : Nat) : BitVec 12 :=
  match t.overM.find? fun e => e.1 = i with
  | some e => e.2
  | none => t.set.entry i

/-- A write of word a with its check bits (R99). -/
def Store.setWord (t : Store) (a : Nat) (w : MicroWord) : Store :=
  { t with overW := (a, w) :: t.overW.filter (fun e => e.1 ≠ a), ce := t.ce.filter (· ≠ a), ue := t.ue.filter (· ≠ a) }

def Store.setEntry (t : Store) (i : Nat) (v : BitVec 12) : Store :=
  { t with overM := (i, v) :: t.overM.filter (fun e => e.1 ≠ i), mce := t.mce.filter (· ≠ i), mue := t.mue.filter (· ≠ i) }

/-- A corrected word or entry is stored again. -/
def Store.corrected (t : Store) (isMap : Bool) (a : Nat) : Store :=
  if isMap then { t with mce := t.mce.filter (· ≠ a) } else { t with ce := t.ce.filter (· ≠ a) }

/-- A word or entry is written from an installed set. -/
def Store.repair (t : Store) (isMap : Bool) (a : Nat) (m : ImgSet) : Store :=
  if isMap then t.setEntry a (m.entry a) else t.setWord a (m.word a)

/-- CSVER of a set (R113). -/
def ImgSet.csver (m : ImgSet) : DWord :=
  let ver : Word := (m.af.map fun p => p.imgver).getD 0
  let lic : Half := (m.lic.map fun p => p.lic).getD 0
  (1#64 <<< 63) ||| (ofB 64 m.lic.isSome <<< 62) ||| (lic.setWidth 64 <<< 32) ||| ver.setWidth 64

/-- MAPVER of a set. -/
def ImgSet.mapver (m : ImgSet) : Word :=
  let v (p : Option ImgPart) : Word := ((p.map fun p => p.imgver).getD 0) &&& 0xFFFF
  (v m.afmap <<< 16) ||| v m.licmap

/-- The boot-ROM Aferset parts, without a licensee part (R113). -/
def bootSet : ImgSet where
  af := some { kind := 1, imgver := Config.bootImgVer, boot := true }
  afmap := some { kind := 3, imgver := Config.bootMapVer, bindver := Config.bootImgVer, boot := true }

/-! ### Authentication (R103) -/

/-- The comparator's pair for one of the MP's comparisons, under session 252: a glitch is counted and recorded; a comparator that
does not answer in time is a glitch recorded as DGTIMEOUT and counted in DGSTAT.TMO (R290). -/
def State.authenticate (s : State) (p : CmpPair) : Bool × State :=
  if p.late then (false, s.dgTimeoutRecord 252 .fincmp) else
  let glitch := p.eq == p.eqn
  let s := if glitch then
      ({ s with dg := { s.dg with glitch := satInc8 s.dg.glitch } } : State).record 0x22 (recSrc 7 0 0xFF) .important
        ([ofB 8 p.eq ||| (ofB 8 p.eqn <<< 1), 0] ++ leBytes 2 252)
    else s
  (p.eq && !p.eqn, s)

/-! ### The MPSTG region (R101) -/

/-- The MP copies n bytes of buffer memory into the region, to a place of its choosing (log 90). -/
def State.stageCopy (s : State) (a n : Nat) : State × Nat :=
  let n := min n 0x400000
  let dst := s.mp.stgBase.toNat * 0x400000 + Config.stagePlace s.freeCtr % (0x400001 - n)
  (s.fresh.mpWrite 0 dst (s.mem.readBytes a n), dst)

/-- The set's parts copied to a gallery's installed copy; a part that is there already stays, and the boot-ROM parts have no image
in buffer memory (R108 step 7, R113). -/
def State.copyPart (s : State) (old new : Option ImgPart) : State × Option ImgPart :=
  match new with
  | none => (s, none)
  | some p =>
    if p.boot || old == some p then (s, some p) else
    let (s, dst) := s.stageCopy p.place p.size
    (s, some { p with place := dst })

def State.copySet (s : State) (old m : ImgSet) : State × ImgSet :=
  let (s, a) := s.copyPart old.af m.af
  let (s, b) := s.copyPart old.lic m.lic
  let (s, c) := s.copyPart old.afmap m.afmap
  let (s, d) := s.copyPart old.licmap m.licmap
  (s, { af := a, lic := b, afmap := c, licmap := d })

/-! ### Commit (R108) -/

/-- Steps 1 and 2: CSVER and MAPVER 0, the sequencers held in reset while their stores are written (steps 3 to 5). -/
def State.commitBegin (s : State) (g : GalId) : State :=
  let s := s.galleryReset g true
  let s := s.each (seqsOf g) fun s q => s.modSeq q fun x => { x with
    store := { x.store with valid := false }, cs := { x.cs with csver := 0 }, run := .reset }
  s.modGal g fun x => { x with mapver := 0 }

/-- Steps 1 to 9 for one gallery. Where the read-back differs, the gallery is left with CSVER = 0 and its sequencers in
reset, and its installed copy stays (R109). -/
def State.commitGal (s : State) (g : GalId) (m : ImgSet) (bad : Bool) : State :=
  let s := s.commitBegin g
  if bad then s.each (seqsOf g) fun s q => s.modSeq q fun x => { x with store := { set := m } } else
  let s := s.each (seqsOf g) fun s q => s.modSeq q fun x => { x with
    store := { set := m, valid := true }, cs := { x.cs with csver := m.csver }, run := .word0 }
  let (s, copy) := s.copySet (s.gal g).installed m
  (s.modGal g fun x => { x with mapver := m.mapver, installed := copy }).record 0x10 (recSrc 4 g.val 0xFF) .staged
    ([BitVec.ofNat 8 g.val, 0] ++ leBytes 4 (m.csver.toNat % 2 ^ 32) ++ leBytes 4 m.mapver.toNat)

/-! ### Rewrites of the scrub (R114, R115) -/

/-- A rewrite is owed and the MP runs. -/
def State.scrubOwes (s : State) (q : SeqId) (isMap : Bool) (a : BitVec 12) : Bool :=
  s.mp.up && !s.eng.mpbusy && s.logicOn (galOf q) && s.mp.scrubOwed.contains (q, isMap, a)

def State.scrubPaid (s : State) (q : SeqId) (isMap : Bool) (a : BitVec 12) : State :=
  { s with mp := { s.mp with scrubOwed := s.mp.scrubOwed.filter (· ≠ (q, isMap, a)) } }

/-- SCRUB_REWRITE: the corrected value is written back, at a cost of 1 cc (R114). -/
def State.scrubRewrite (s : State) (q : SeqId) (isMap : Bool) (a : BitVec 12) : State :=
  let t := (s.seq q).store
  if !s.scrubOwes q isMap a || (if isMap then t.mue.contains a.toNat else t.ue.contains a.toNat) then s else
  (s.scrubPaid q isMap a).modSeq q fun x => { x.spendCc with store := x.store.corrected isMap a.toNat }

def execScrubRewrite (q : SeqId) (isMap : Bool) (addr : BitVec 12) (s : State) : Out State :=
  .next (s.scrubRewrite q isMap addr)

/-- CONTROL_STORE_REPAIR: an uncorrectable word or entry is rewritten from the installed copy once its tag has been found
equal, and recorded; a sequencer that a microfault stopped stays stopped. -/
def State.storeRepair (s : State) (q : SeqId) (isMap : Bool) (a : BitVec 12) (tag : CmpPair) : State :=
  let t := (s.seq q).store
  if !s.scrubOwes q isMap a || !(if isMap then t.mue.contains a.toNat else t.ue.contains a.toNat) then s else
  let (ok, s) := s.authenticate tag
  let s := s.scrubPaid q isMap a
  if !ok then s else
  let m := (s.gal (galOf q)).installed
  let s := s.modSeq q fun x => { x.spendCc with store := x.store.repair isMap a.toNat m }
  s.record 0x11 (recSrc 4 (galOf q).val q.val) .staged
    ([BitVec.ofNat 8 q.val, 0] ++ leBytes 2 a.toNat ++ [ofB 8 isMap])

def execControlStoreRepair (q : SeqId) (isMap : Bool) (addr : BitVec 12) (tag : CmpPair) (s : State) : Out State :=
  .next (s.storeRepair q isMap addr tag)

/-! ### RESTART after a microfault (R94) -/

/-- MCFAULT_RESTART: only while MF = 1. -/
def State.mcRestart (s : State) (q : SeqId) : State :=
  if (s.seq q).cs.mf then
    s.modSeq q fun x =>
      let y : Seq := { x with cs := { x.cs with mf := false } }
      y.reset
  else s

def execMcfaultRestart (q : SeqId) (s : State) : Out State := .next (if s.logicOn (galOf q) then s.mcRestart q else s)

end Sys2Proof.Machine
end

