-- ==== Sys2Proof/Machine/Scratch.lean ====
section
/-!
DEFINITION. Scratch banks: the write-back of corrected codewords (R253), ownership (R258, R259), retention and wake (R260,
R261), the loss of the retention rail (R394); and the runtime block (R262).
-/

namespace Sys2Proof.Machine

open Sys2Proof

/-! ### Write-back (R253) -/

/-- The bank of gallery g that a codeword lies in. -/
def inBank (g : GalId) (b : Fin 16) (c : Nat) : Bool :=
  decide (scratchAddr g (b.val * 0x10000) ≤ c) && decide (c < scratchAddr g (b.val * 0x10000) + 0x10000)

/-- SCRATCH_ECC_WRITEBACK: the oldest corrected codeword of the bank is written back. -/
def State.eccWriteback (s : State) (g : GalId) (b : Fin 16) : State :=
  match s.ecc.wb.find? (inBank g b) with
  | none => s
  | some c => { s with ecc := { s.ecc with wb := s.ecc.wb.filter (· ≠ c), ce := s.ecc.ce.filter (· ≠ c) } }

def execScratchEccWriteback (g : GalId) (bank : Fin 16) (s : State) : Out State := .next (s.eccWriteback g bank)

/-! ### Ownership (R258, R259) -/

/-- The owner code of an agent; the debug master is never an owner (R373). -/
def agentCode : Agent → Option (BitVec 4)
  | .mp => some 8
  | .seq i => some (BitVec.ofNat 4 i.val)
  | .host | .lantern => none

/-- The agent may change a field of a bank that `own` owns. -/
def mayOwn (a : Agent) (own : BitVec 4) : Bool := a == .mp || agentCode a == some own

/-- One owner field: the value it takes, and whether the write is refused. -/
def ownField (a : Agent) (old new : BitVec 4) : BitVec 4 × Bool :=
  if new = old then (old, false)
  else if 8 < new.toNat || !mayOwn a old then (old, true)
  else (new, false)

/-- A write of BANKOWN0 or BANKOWN1. -/
def Gal.writeOwn (x : Gal) (high : Bool) (v : Word) (a : Agent) : Gal :=
  let base := if high then 8 else 0
  (List.range 8).foldl (fun y i =>
    let (o, refused) := ownField a (x.owner.toList.getD (base + i) 8) (v.extractLsb' (4 * i) 4)
    { y with owner := y.owner.setIfInBounds (base + i) o, handerr := y.handerr || refused }) x

/-- BANKOWN0 or BANKOWN1 as read. -/
def Gal.bankown (x : Gal) (high : Bool) : Word :=
  (List.range 8).foldl (fun w i => w ||| ((x.owner.toList.getD ((if high then 8 else 0) + i) 8).setWidth 32 <<< (4 * i))) 0

def execBankownWrite (g : GalId) (high : Bool) (v : Word) (a : Agent) (s : State) : Out State :=
  .next (if s.logicOn g then s.modGal g fun x => x.writeOwn high v a else s)

/-- A write of BANKRET: each RET bit is decided by its bank's owner; a bank in retention whose bit is cleared wakes. -/
def Gal.writeRet (x : Gal) (v : Word) (a : Agent) : Gal :=
  (List.range 16).foldl (fun y i =>
    if bit v i == bit x.ret i then y
    else if !mayOwn a (x.owner.toList.getD i 8) then { y with handerr := true }
    else
      { y with
        ret := putBit y.ret i (bit v i)
        waking := if !bit v i && !bit x.awake i then putBit y.waking i true else y.waking }) x

/-- BANKRET as read. -/
def Gal.bankret (x : Gal) : Word := (x.awake.setWidth 32 <<< 16) ||| x.ret.setWidth 32

def execBankretWrite (g : GalId) (v : Word) (a : Agent) (s : State) : Out State :=
  .next (if s.logicOn g then s.modGal g fun x => x.writeRet v a else s)

/-! ### Retention (R260, R261) -/

/-- A byte range meets a bank of gallery g. -/
def meetsBank (g : GalId) (b : Fin 16) (a n : Nat) : Bool :=
  decide (a < scratchAddr g (b.val * 0x10000) + 0x10000) && decide (scratchAddr g (b.val * 0x10000) < a + n)

/-- The bytes of a media request's scratch side meet a bank. -/
def MReq.meets (r : MReq) (g : GalId) (b : Fin 16) : Bool :=
  match r.purpose with
  | .fetch _ _ dest => meetsBank g b dest r.len
  | .put _ src => meetsBank g b src r.len
  | _ => false

/-- A fabric request waits for a bank (R260). -/
def FabReq.meets (f : FabReq) (g : GalId) (b : Fin 16) : Bool := meetsBank g b f.addr f.size

/-- A fabric request waits for a bank, a transfer targets it, or a bound staging line is to be written into it. -/
def State.bankBusy (s : State) (g : GalId) (b : Fin 16) : Bool :=
  let x := s.gal g
  x.md.waiting.any (fun r => r.meets g b) || x.md.tags.any (fun t => !t.orphan && !t.sump && t.req.meets g b)
    || x.lines.toList.any (fun l => l.busy && l.bound.isSome && meetsBank g b l.dest l.m)
    || s.seqs.toList.any fun y => y.mic.fab.any fun f => f.meets g b

/-- RETENTION_ENTRY: a bank with RET set and no transfer leaves full voltage; a GAL_POWER RETAIN that waits for it goes on
(R348). -/
def State.retentionEntry (s : State) (g : GalId) (b : Fin 16) : State :=
  let x := s.gal g
  if bit x.ret b.val && bit x.awake b.val && !s.bankBusy g b && s.present g then
    (s.modGal g fun x => { x with awake := putBit x.awake b.val false, waking := putBit x.waking b.val false }).powerAdvance g
  else s

def execRetentionEntry (g : GalId) (bank : Fin 16) (s : State) : Out State := .next (s.retentionEntry g bank)

/-- BANK_WAKE: the bank is awake, and accesses that hold at it are served when they are repeated. -/
def State.bankWake (s : State) (g : GalId) (b : Fin 16) : State :=
  if bit (s.gal g).waking b.val then
    s.modGal g fun x => { x with awake := putBit x.awake b.val true, waking := putBit x.waking b.val false }
  else s

def execBankWake (g : GalId) (bank : Fin 16) (s : State) : Out State := .next (s.bankWake g bank)

/-! ### VDD_RET_LOSS (R394) -/

/-- The contents and check bits of one bank are lost: every byte is free, and each codeword is uncorrectable or passes. -/
def State.loseBank (s : State) (g : GalId) (b : Fin 16) : State :=
  let a := scratchAddr g (b.val * 0x10000)
  let n := s.freeCtr
  let cws := (List.range 8192).map fun i => a + 8 * i
  let out (l : List Nat) : List Nat := l.filter fun c => !inBank g b c
  { s with
    freeCtr := n + 65536
    mem := s.mem.writeBytes a ((List.range 65536).map fun i => Config.lostByte (n + i))
    ecc := { ce := out s.ecc.ce, found := out s.ecc.found, wb := out s.ecc.wb
             ue := out s.ecc.ue ++ cws.filter fun c => !Config.lostPasses (n + (c - a) / 8) } }

/-- VDD_RET_LOSS: every bank of the gallery that is in retention. -/
def State.vddRetLoss (s : State) (g : GalId) : State :=
  if !s.present g || !s.pdOn (2 * g.val + 1) then s else
  s.each (List.finRange 16) fun s b => if bit (s.gal g).awake b.val then s else s.loseBank g b

def execVddRetLoss (g : GalId) (s : State) : Out State := .next (s.vddRetLoss g)

/-! ### The runtime block (R262) -/

/-- RTBASE_WRITE. -/
def execRtbaseWrite (g : GalId) (v : Word) (s : State) : Out State := .next (if s.logicOn g then s.setRtbase g v else s)

/-- The block's checks. -/
def rtBlockOk (bs : List Byte) : Bool :=
  (sldCheck 0 (BitVec.ofNat 128 (imgNat bs 0 16))).isNone && (sldCheck 7 (BitVec.ofNat 128 (imgNat bs 16 16))).isNone
    && decide (imgNat bs 0x22 2 % 128 = 0) && decide (imgNat bs 0x24 28 = 0)

/-- The block fails: nothing is loaded, RTERR, a record, and the sequencer waits for the next write of RTBASE. -/
def State.rtFail (s : State) (q : SeqId) : State :=
  let s := s.modGal (galOf q) fun x => { x with rterr := putBit x.rterr (idxOf q).val true }
  let s := s.record 0x12 (recSrc 0 (galOf q).val q.val) .important [BitVec.ofNat 8 q.val]
  s.modSeq q fun x => { x with run := .rtWait }

/-- The block is loaded, and the runtime runs; its idle loop takes an item that waits in the slot. -/
def State.rtLoad (s : State) (q : SeqId) (bs : List Byte) : State :=
  let s := s.modGal (galOf q) fun x => { x with rterr := putBit x.rterr (idxOf q).val false }
  let s := s.modSeq q fun x => { x with
    run := .active
    regs := { x.regs with
      s0r := BitVec.ofNat 128 (imgNat bs 0 16), s7r := BitVec.ofNat 128 (imgNat bs 16 16)
      spr := BitVec.ofNat 16 (imgNat bs 0x20 2), vbr := BitVec.ofNat 16 (imgNat bs 0x22 2) } }
  s.idleBind q

/-- RUNTIME_BLOCK_LOAD. -/
def State.runtimeBlockLoad (s : State) (q : SeqId) : State :=
  let x := s.seq q
  let g := galOf q
  if !s.alive q || x.run != .word0 || !x.store.valid || x.dbg.halted || x.bud.stuck then s else
  let off := (s.gal g).rtbase.toNat + (idxOf q).val * 0x40
  if 0x100000 < off + 64 then s.rtFail q else
  match s.memRead q (scratchAddr g off) 64 with
  | .ok s bs => let s := s.routine q { more := 32 }; if rtBlockOk bs then s.rtLoad q bs else s.rtFail q
  | .bus s _ => s.rtFail q
  | .wait s => s
  | .retry => s

def execRuntimeBlockLoad (q : SeqId) (s : State) : Out State := .next (s.runtimeBlockLoad q)

/-! ### Software interrupts (R241) -/

/-- A write of IRQSET: SOFT requests of vectors 27 to 31. -/
def Exc.setSoft (e : Exc) (v : Word) : Exc := { e with irqpend := e.irqpend ||| (v.setWidth 16 &&& 0xF800) }

def execIrqsetWrite (q : SeqId) (v : Word) (s : State) : Out State :=
  .next (if s.logicOn (galOf q) then s.modSeq q fun x => { x with exc := x.exc.setSoft v } else s)

end Sys2Proof.Machine
end

