-- ==== Sys2Proof/Machine/Work.lean ====
section
/-!
DEFINITION. The work and completion ports (R279 to R282).
-/

namespace Sys2Proof.Machine

open Sys2Proof

/-! ### wk_ready (R279) -/

/-- Free entries of the completion FIFO. -/
def Work.cfree (w : Work) : Nat := 64 - w.fifo.length

/-- wk_ready[g]. -/
def State.wkReady (s : State) (g : Fin 16) : Bool :=
  if s.eng.state == .calib || s.eng.state == .init || s.eng.state == .load || s.pd.active || decide (s.work.cfree < 16) then false
  else if s.serving g then !(s.emptySlots g).isEmpty
  else true

/-- WKSTAT.READY. -/
def State.wkReadyMask (s : State) : Half :=
  (List.finRange 16).foldl (fun w g => if s.wkReady g then w ||| (1#16 <<< g.val) else w) 0

/-! ### The descriptor (R279, R280) -/

/-- A work descriptor, 32 bytes little-endian. -/
abbrev WorkDesc := BitVec 256

def wdCtx (d : WorkDesc) : Half := d.extractLsb' 0 16
def wdEntry (d : WorkDesc) : Half := d.extractLsb' 16 16
def wdGal (d : WorkDesc) : GalId := Fin.ofNat 16 (d.extractLsb' 32 4).toNat
def wdArg (d : WorkDesc) (i : Nat) : Word := d.extractLsb' (64 + 32 * i) 32

/-- A reserved field is nonzero. -/
def wdReserved (d : WorkDesc) : Bool :=
  d.extractLsb' 36 4 != 0 || d.extractLsb' 43 5 != 0 || d.extractLsb' 48 16 != 0 || d.extractLsb' 192 64 != 0

def wdItem (d : WorkDesc) : Item where
  ctx := wdCtx d
  scope := wdGal d
  entry := wdEntry d
  args := #v[wdArg d 0, wdArg d 1, wdArg d 2, wdArg d 3]
  started := false
  ticks := 0

/-- The first row of R280's table that matches: status, cause, result; none where the item stays. -/
def State.wdCheck (s : State) (d : WorkDesc) : Option (Byte × Byte × Word) :=
  let c := wdCtx d
  let g := wdGal d
  let st := s.ctxState c
  let nohome := s.ctxFlag c 2
  if wdReserved d || c == 0xFFFF || !s.present g then some (stFAILED, 0x06, 0)
  else if !s.serving g then some (stRETURNED, 0x10, 0)
  else if st = ctxFREE then some (stFAILED, 0x05, 0)
  else if st = ctxBROKEN then some (stFAILED, 0x04, 0)
  else if st = ctxHOMING then some (stRETURNED, 0x12, 0)
  else if st = ctxBOUND ∨ st = ctxPARKED then some (stRETURNED, 0x11, 0)
  else if nohome || s.ctxHome c != g then
    some (stRETURNED, 0x13, BitVec.ofNat 32 ((s.ctxHome c).val + if nohome then 2 ^ 31 else 0))
  else none

/-- The record of a descriptor that the check ends; it changes no entry. -/
def State.wdEnd (s : State) (d : WorkDesc) (status cause : Byte) (result : Word) : State :=
  let tokens : Word := if status = stRETURNED then 0 else BitVec.ofNat 32 (s.ctxField (wdCtx d) 0x1C 4)
  let s := { s with work := { s.work with badd := if cause = 0x06 then satInc8 s.work.badd else s.work.badd } }
  s.postRecord (if s.present (wdGal d) then some (wdGal d) else none)
    { ctx := wdCtx d, status := status, cause := cause, result := result, ticks := 0, seq := 0xFF, tokens := tokens }

/-- WORK_DESCRIPTOR: accepted while wk_ready of its gallery is 1; re-homed items take slots first. For a serving gallery it lands
in a slot and is checked there; for another it ends at once. -/
def State.workDescriptor (s : State) (d : WorkDesc) : State :=
  let g := wdGal d
  let s := s.placeHeld g
  if !s.wkReady g then s else
  let s := if s.present g then s.led g 21 1 else s
  match if s.serving g then s.pickSlot g else none, s.wdCheck d with
  | none, some (status, cause, result) => s.wdEnd d status cause result
  | none, none => s
  | some i, _ =>
    let s := if wdCtx d != 0xFFFF then s.ctxTouch (wdCtx d) else s
    match s.wdCheck d with
    | some (status, cause, result) => (s.landSlot g i).wdEnd d status cause result
    | none => ((s.setCtxState (wdCtx d) ctxPARKED).setCtxField (wdCtx d) 0x1C 4 0).slotIn g i (wdItem d)

def execWorkDescriptor (d : BitVec 256) (s : State) : Out State := .next (s.workDescriptor d)

/-! ### Recall (R281) -/

/-- A prefetched item that has not been bound returns; SLOTRET and vector 20. -/
def State.recallSeq (s : State) (q : SeqId) : State :=
  match (s.seq q).prefetch with
  | none => s
  | some it =>
    if it.started then s
    else ((s.dropPrefetch q 0x14).modSeq q fun x => { x with cond := { x.cond with slotret := true } }).irq q 4

/-- WORK_RECALL. -/
def execWorkRecall (g : GalId) (s : State) : Out State := .next (s.each (seqsOf g) fun s q => s.recallSeq q)

/-! ### cp_* (R282) -/

/-- COMPLETION_RECORD: the oldest record leaves. -/
def State.completionOut (s : State) : State :=
  match s.work.fifo with
  | [] => s
  | c :: rest => { s with work := { s.work with fifo := rest, last := some c } }

def execCompletionRecord (s : State) : Out State := .next s.completionOut

end Sys2Proof.Machine
end

