-- ==== Sys2Proof/Machine/Debug.lean ====
section
/-!
DEFINITION. Halt requests and resumption (R364 to R366, R368, R369), the reload of the engine watchdog (R380), rope inputs and
outputs (R376).
-/

namespace Sys2Proof.Machine

open Sys2Proof

/-! ### Halt and resume -/

/-- A halt request with WHY 1 for one sequencer (R364). -/
def State.haltRequest (s : State) (q : SeqId) : State := s.modSeq q fun x => x.requestHalt 1

/-- DBGCTL_HALT. -/
def execDbgctlHalt (q : SeqId) (s : State) : Out State := .next (if s.logicOn (galOf q) then s.haltRequest q else s)

/-- A halted sequencer is released; its watchdog reloads (R366, R369). -/
def Seq.release (x : Seq) : Seq :=
  { x with
    exc := { x.exc with wdcount := x.exc.wdperiod }
    dbg := { x.dbg with halted := false, defer := false, steps := 0, rope := none } }

/-- A deferred request is withdrawn. -/
def Seq.withdrawHalt (x : Seq) : Seq :=
  { x with dhalt := false, dbg := { x.dbg with defer := false, rope := none } }

/-- A RESUME packet (R382). -/
def State.resumePacket (s : State) (q : SeqId) : State :=
  s.seqPacket q 5 0x07 (leBytes 2 (s.regs q).pc.toNat ++ List.replicate 8 0)

/-- DBG_RESUME of one sequencer: released where halted, withdrawn where deferred, else unchanged. -/
def State.resumeSeq (s : State) (q : SeqId) : State :=
  let x := s.seq q
  if x.dbg.halted then ((s.modSeq q Seq.release).resumePacket q).idleBind q
  else if x.dhalt && x.dbg.defer then s.modSeq q Seq.withdrawHalt
  else s

/-- DBGCTL_RESUME. -/
def execDbgctlResume (q : SeqId) (s : State) : Out State := .next (if s.logicOn (galOf q) then s.resumeSeq q else s)

/-! ### The engine watchdog (R380) -/

/-- A write of EWDKICK: only the MP's 0x5A5A reloads. -/
def State.ewdKick (s : State) (v : Word) (a : Agent) : State :=
  if a == .mp && v == 0x5A5A then { s with aon := { s.aon with ewdCount := s.aon.ewdPeriod } } else s

def execEwdkick (v : Word) (a : Agent) (s : State) : Out State := .next (s.ewdKick v a)

/-! ### Ropes (R376) -/

/-- XT_IN_EDGE: a rising edge fires the rope when INPIN = 1. -/
def State.xtInEdge (s : State) (r : Fin 8) : State := if bit s.aon.xtsrc[r] 1 then s.fireRope r else s

def execXtInEdge (r : Fin 8) (s : State) : Out State := .next (s.xtInEdge r)

/-- ROPE_PULSE_END: xt_out falls, and with it the rope condition of the galleries it was raised in. -/
def State.ropePulseEnd (s : State) (r : Fin 8) : State :=
  if !bit s.aon.xtOut r.val then s else
  let s := { s with aon := { s.aon with xtOut := putBit s.aon.xtOut r.val false } }
  let driven (g : GalId) : Bool := (List.finRange 8).any fun i => bit s.aon.xtOut i.val && bit s.aon.xtdst[i] g.val
  s.each s.galleries fun s g => s.modGal g fun x => { x with xtin := driven g }

def execRopePulseEnd (r : Fin 8) (s : State) : Out State := .next (s.ropePulseEnd r)

/-- XTST.ARMED. -/
def State.ropesArmed (s : State) : Byte :=
  (List.finRange 8).foldl (fun w r => if s.ropeArmed r then w ||| (1#8 <<< r.val) else w) 0

end Sys2Proof.Machine
end

