-- ==== Sys2Proof/Machine/Encoding.lean ====
section
/-!
DEFINITION. What the first bits of an instruction word fix: which majors and minors are assigned (R143, R151, R171), and what the
word at the head of the queue reads and writes (R213); and EXCEPTION_ENTRY, for words outside the encodings.
-/

namespace Sys2Proof.Machine

open Sys2Proof

/-! ### Fields of a format-0 word (R72, R142) -/

def irMajor (ir : Word) : BitVec 7 := ir.extractLsb' 24 7
def irMinor (ir : Word) : BitVec 4 := ir.extractLsb' 20 4
def irRd (ir : Word) : BitVec 5 := ir.extractLsb' 15 5
def irRs (ir : Word) : BitVec 5 := ir.extractLsb' 10 5
def irRx (ir : Word) : BitVec 5 := ir.extractLsb' 5 5
def irSegn (ir : Word) : BitVec 3 := ir.extractLsb' 0 3
def irImm8 (ir : Word) : Byte := ir.setWidth 8

/-- The fields of a word of form R. -/
def irFormR (ir : Word) : FormR :=
  { minor := irMinor ir, rd := irRd ir, rs := irRs ir, rx := irRx ir, segn := irSegn ir }
/-- The fields of a word whose minor chooses form R or I8. -/
def irFormRI (ir : Word) : FormRI :=
  { minor := irMinor ir, rd := irRd ir, rs := irRs ir, rx := irRx ir, imm := irImm8 ir }
/-- The fields of a stream word (R172). -/
def irForm (ir : Word) : FormS :=
  { ss := ir.extractLsb' 20 3, sd := irSegn ir, rd := irRd ir, rs := irRs ir, rx := irRx ir }

/-! ### Majors and minors -/

/-- The major is assigned (R151); 0x60 to 0x6F belong to a licensee. -/
def majorAssigned (m : BitVec 7) : Bool :=
  let m := m.toNat
  decide (m ≤ 0x0E) || decide (0x10 ≤ m ∧ m ≤ 0x1B) || decide (0x20 ≤ m ∧ m ≤ 0x29) || decide (0x30 ≤ m ∧ m ≤ 0x3E)
    || decide (0x40 ≤ m ∧ m ≤ 0x4B) || decide (0x50 ≤ m ∧ m ≤ 0x59) || decide (0x60 ≤ m ∧ m ≤ 0x6F)

/-- The minor is one that the major's table lists, or the major ignores it (R143, R152 to R172, R215). -/
def minorListed (m : BitVec 7) (k : BitVec 4) : Bool :=
  let k := k.toNat
  let width : Bool := decide (k < 8) && k % 4 != 3
  match m.toNat with
  | 0x00 | 0x01 | 0x02 | 0x03 | 0x04 | 0x05 | 0x06 | 0x07 | 0x0D | 0x0E => decide (k ≤ 3)
  | 0x08 => decide (k ≤ 8)
  | 0x09 | 0x0A | 0x0B | 0x0C => decide (k ≤ 1)
  | 0x15 => decide (k ≤ 5)
  | 0x16 | 0x17 => decide (k ≤ 4) || decide (8 ≤ k ∧ k ≤ 0xC)
  | 0x18 | 0x19 => decide (k ≤ 9)
  | 0x1A => decide (k ≤ 4)
  | 0x1B => decide (k ≤ 3)
  | 0x30 | 0x31 | 0x32 | 0x33 => width
  | 0x34 | 0x35 | 0x36 | 0x37 | 0x38 | 0x39 | 0x3D => decide (k ≤ 2)
  | 0x3A | 0x3C => k % 4 != 3
  | 0x3B => (cvtType k).isSome
  | 0x41 | 0x43 | 0x45 | 0x47 | 0x48 | 0x4B => decide (k < 8)
  | 0x50 | 0x51 => k == 0
  | 0x55 => decide (k ≤ 2)
  | 0x56 => decide (k ≤ 1)
  | _ => true

/-! ### What the head touches (R213) -/

/-- The wide operation of a word of majors 0x10 to 0x1B (R158). -/
def wideOf (ir : Word) : Option WideOp :=
  let k := (irMinor ir).toNat
  let n : ShiftCount := if k < 8 then .imm (ir.setWidth 5) else .reg (irRs ir)
  let imm := irImm8 ir
  match (irMajor ir).toNat with
  | 0x10 => some .addW
  | 0x11 => some .adcW
  | 0x12 => some .subW
  | 0x13 => some .sbcW
  | 0x14 => some .cmpW
  | 0x15 => [WideOp.andW, .orW, .xorW, .andnW, .notW, .negW][k]?
  | 0x16 => [WideOp.shlW n, .shrW n, .asrW n, .rolW n, .rorW n][k % 8]?
  | 0x17 => [WideOp.shlH n, .shrH n, .asrH n, .rolH n, .rorH n][k % 8]?
  | 0x18 => [WideOp.addH, .adcH, .subH, .sbcH, .cmpH, .andH, .orH, .xorH, .notH, .negH][k]?
  | 0x19 => [WideOp.brevW, .brevH, .parW, .parH, .swapbH, .sextH, .zextH, .sextW, .zextW, .clzW][k]?
  | 0x1A => [WideOp.crci, .crcbW, .crcH, .crcW, .crcF][k]?
  | 0x1B => [WideOp.addiH imm, .addiW imm, .cmpiH imm, .cmpiW imm][k]?
  | _ => none

/-- What a DGST.C word touches, by the operation that its control word names (R286). -/
def dgstWordTouch (r : Regs) (f : FormS) : Touch :=
  let code := (r.W f.rd).toNat % 256
  dgstTouch f (decide (2 ≤ code ∧ code ≤ 5)) (code = 3)

/-- What a stream word of majors 0x40 to 0x4B touches (R172). -/
def streamTouch (r : Regs) (ir : Word) : Touch :=
  let f := irForm ir
  let all := ((tW f.rs).or (tW f.rd)).or (tW f.rx)
  match (irMajor ir).toNat with
  | 0x42 => (tW f.rd).or (tSt 0x01)
  | 0x43 => longTouch .copy f
  | 0x44 => longTouch .scan f
  | 0x45 => longTouch .crcs f
  | 0x46 => longTouch (if bit ir 23 then .matchF else .matchS) f
  | 0x47 => longTouch .hashs f
  | 0x48 => longTouch .filt f
  | 0x49 => if bit ir 23 then dgstWordTouch r f else longTouch .dgst f
  | 0x4A => longTouch .fills f
  | 0x4B => longTouch .cmps f
  | _ => all

/-- What a system word of majors 0x50 to 0x59 touches. -/
def systemTouch (ir : Word) : Touch :=
  match (irMajor ir).toNat with
  | 0x50 => (tW (irRd ir)).or (tSt 0x21)
  | 0x51 => (tW (irRd ir)).or (tSt 0x01)
  | 0x54 => tSt 0x20
  | 0x55 => if irMinor ir = 0 then tNone else if irMinor ir = 1 then tSt 0x01 else (tB (irRd ir)).or (tSt 0x01)
  | 0x56 => tSt 0x01
  | _ => tNone

/-- What a pool or multiplier word of majors 0x30 to 0x3E touches. -/
def arithWordTouch (r : Regs) (ir : Word) : Touch :=
  let k := irMinor ir
  let rd := irRd ir
  let rs := irRs ir
  let rx := irRx ir
  match (irMajor ir).toNat with
  | 0x30 | 0x31 => mulTouch k rs rx
  | 0x32 | 0x33 => divTouch k rd rs rx
  | 0x38 => arithTouch k rd rs rx false
  | 0x3A => fcmpTouch k rs rx
  | 0x3B => poolTouch (fcvtOp k rd rs rx r) (fcvtTouch k rd rs rx)
  | 0x3C => fminmaxTouch k rd rs rx
  | 0x3D => fclassTouch k rd rs
  | 0x3E => tNone
  | _ => arithTouch k rd rs rx true

/-- What a format-0 word of majors 0x00 to 0x0E touches. -/
def moveTouch (ir : Word) : Touch :=
  let f := irFormR ir
  match (irMajor ir).toNat with
  | 0x00 | 0x01 => lsTouch .b f
  | 0x02 | 0x03 => lsTouch .h f
  | 0x04 | 0x05 => lsTouch .w f
  | 0x06 | 0x07 => lsTouch .a f
  | 0x08 => movlTouch (irFormRI ir)
  | 0x09 => movxTouch (irFormRI ir)
  | 0x0D | 0x0E => stackTouch f.minor f.rd
  | _ => if f.minor = 1 then tH f.rx else tNone

/-- What a control transfer of majors 0x20 to 0x29 touches. -/
def transferTouch (ir : Word) : Touch :=
  match (irMajor ir).toNat with
  | 0x21 => tSt (jccMask (irMinor ir))
  | 0x24 => tB (irRd ir)
  | 0x26 => tSt 0xFFFF
  | _ => tNone

/-- What an instruction word reads and writes; a word that is ILLEGAL touches nothing. -/
def wordTouch (r : Regs) (ir : Word) : Touch :=
  if bit ir 31 then (shortOf (ir.extractLsb' 16 15)).touch.or (shortOf (ir.extractLsb' 1 15)).touch
  else if !minorListed (irMajor ir) (irMinor ir) || !majorAssigned (irMajor ir) then tNone
  else match (irMajor ir).toNat / 16 with
    | 0 => moveTouch ir
    | 1 => match wideOf ir with | none => tNone | some op => wideTouch op (irRd ir) (irRs ir)
    | 2 => transferTouch ir
    | 3 => arithWordTouch r ir
    | 4 => streamTouch r ir
    | 5 => systemTouch ir
    | _ => tNone

/-! ### EXCEPTION_ENTRY -/

/-- The entry of a vector that microcode latched (R86): ECAUSE and EADDR as latched, at the fault PC. -/
def State.latchedEntry (s : State) (q : SeqId) (v : Nat) : State :=
  let x := s.seq q
  let e : Entry := { vec := v, ecause := x.regs.ecause, eaddr := x.regs.eaddr, framePc := if v = 8 then x.mic.fpcMark + 4 else x.mic.fpcMark,
                     ipc := x.mic.fpcMark,
                     kind := .fault }
  (s.modSeq q fun x => { x with mic := { x.mic with vec := none } }).enter q e

/-- The causes of ILLEGAL that no instruction command raises itself: an unassigned major, a minor its table does not list, and a
map entry of 0x000 below 0x200 that can be read (R89, R143, R171). -/
def State.undefinedCause (s : State) (q : SeqId) (r : EntryReq) : Option Byte :=
  match r with
  | .undefinedMajor m => if majorAssigned m then none else some 0x01
  | .undefinedMinor m k => if majorAssigned m && !minorListed m k then some 0x02 else none
  | .mapEntryInvalid i =>
    let t := (s.seq q).store
    if t.mue.contains i.toNat || t.entry i.toNat != 0 then none else some 0x06
  | _ => none

/-- EXCEPTION_ENTRY: a word outside the encodings raises ILLEGAL (R143, R171), the head's own fetch fault its vector (R243), a
latched vector its entry (R86). A request whose ground does not hold changes nothing. -/
def State.exceptionEntry (s : State) (q : SeqId) (r : EntryReq) : State :=
  match s.undefinedCause q r with
  | some c => runInstr (.exceptionEntry q r) q tNone (fun s => .exn s (illegal (s.regs q).pc c)) s
  | none =>
    match r with
    | .fetchFault =>
      if !s.ready q then s else
      match s.fetchAt q with
      | .exn s e => (s.routine q wordsLoose).enter q (e.entry (s.regs q).pc)
      | _ => s
    | .latched =>
      match (s.seq q).mic.vec with
      | none => s
      | some v => if s.alive q && (s.seq q).issues then s.latchedEntry q v else s
    | _ => s

def execExceptionEntry (q : SeqId) (r : EntryReq) (s : State) : Out State := .next (s.exceptionEntry q r)

end Sys2Proof.Machine
end

