-- ==== Sys2Proof/Machine/RegMap.lean ====
section
/-!
DEFINITION. The host-port map (R31 to R38) and every register behind it: which register an address names, its value as read,
the effects of a read (R10: RC, RS) and of a write by an agent (R10, R259, R380).
-/

namespace Sys2Proof.Machine

open Sys2Proof

/-! ### Names -/

/-- Gallery registers G<g>.NAME; `hi` marks the second word of a pair. -/
inductive GReg where
  | phase | tbud | mapver | raline
  | bankown (hi : Bool) | bankret | scrst | screaddr | ctxbanks | rtbase
  | mdcfg | mdcred | mdtags | mderr | mdsump
  | tctl (t : Fin 8) | tstat (t : Fin 8) | tcnt (t : Fin 8) (hi : Bool) | tcmp (t : Fin 8) (hi : Bool)
  | tcap (t : Fin 8) (hi : Bool) | tintv (t : Fin 8)
  | gstat | stimen
  deriving DecidableEq, Repr

/-- Sequencer registers G<g>.Q<q>.NAME. -/
inductive QReg where
  | budcyc | budtok | mcfault | csecc | ustat | csver (hi : Bool)
  | ractl | racnt | xfer | excst | irqpend | irqlvl (hi : Bool) | irqset | wdctl | dgsess
  | evslot (n : Fin 8) | dbgctl | dbgst
  deriving DecidableEq, Repr

/-- Registers of the host-port map outside the mailboxes. -/
inductive Reg where
  | mbdb (hi : Bool) | mbbusy (hi : Bool) | mbdone (hi : Bool) | mberr
  | engid | engver | engst | engcfg | hosterr | hirq | hirqen
  | tickcfg | tickctl | ticknum (hi : Bool) | plant (i : Fin 14) | thstate | plantin | plantst | holdcfg | holdst
  | ledgst | ledgctl | ledgsel | ledgval | ledgtick
  | chsub (n : Fin 256) | evincfg (i : Fin 64) | evocfg (i : Fin 64) | lutsel (j : Fin 64) | lutctl (j : Fin 64)
  | lutst (j : Fin 64) | evchovr (k : Fin 8) | evstat | sclkratio
  | bbst | bbnew | bbcom | bbcfg | trctl | trst | trseq (k : Fin 4)
  | ctxst | ctxue | mpfwver | mpstg | mpbank
  | lntcfg | dbgemu | ewdctl | ewdkick | xtsrc (r : Fin 8) | xtdst (r : Fin 8) | xtst
  | bpl (u : Fin 8) | bph (u : Fin 8) | bpc (u : Fin 8)
  | wkstat | dgcfg | dgstat | dgkeymask (hi : Bool)
  | pdstat (hi : Bool) | pdcfg | plwcfg | plwst | rstcause
  | gal (g : GalId) (r : GReg)
  | seq (q : SeqId) (r : QReg)
  deriving DecidableEq, Repr

/-! ### Addresses (word-aligned) -/

/-- A timer's register by its offset from 0x0700 (R305 tables). -/
def timerReg (t : Fin 8) (off : Nat) : Option GReg :=
  match off with
  | 0x00 => some (.tctl t)
  | 0x04 => some (.tstat t)
  | 0x08 => some (.tcnt t false)
  | 0x0C => some (.tcnt t true)
  | 0x10 => some (.tcmp t false)
  | 0x14 => some (.tcmp t true)
  | 0x18 => some (.tcap t false)
  | 0x1C => some (.tcap t true)
  | 0x20 => some (.tintv t)
  | _ => none

/-- Gallery register at an offset below 0x1000. -/
def galReg (off : Nat) : Option GReg :=
  if 0x700 ≤ off ∧ off < 0x900 then timerReg (Fin.ofNat 8 ((off - 0x700) / 0x40)) ((off - 0x700) % 0x40)
  else match off with
    | 0x100 => some .phase
    | 0x104 => some .tbud
    | 0x300 => some .mapver
    | 0x400 => some .raline
    | 0x500 => some (.bankown false)
    | 0x504 => some (.bankown true)
    | 0x508 => some .bankret
    | 0x50C => some .scrst
    | 0x510 => some .screaddr
    | 0x514 => some .ctxbanks
    | 0x518 => some .rtbase
    | 0x600 => some .mdcfg
    | 0x604 => some .mdcred
    | 0x608 => some .mdtags
    | 0x60C => some .mderr
    | 0x610 => some .mdsump
    | 0x900 => some .gstat
    | 0xA00 => some .stimen
    | _ => none

/-- Sequencer register at an offset. -/
def seqReg (off : Nat) : Option QReg :=
  if 0x600 ≤ off ∧ off < 0x620 then some (.evslot (Fin.ofNat 8 ((off - 0x600) / 4)))
  else match off with
    | 0x100 => some .budcyc
    | 0x104 => some .budtok
    | 0x200 => some .mcfault
    | 0x204 => some .csecc
    | 0x208 => some .ustat
    | 0x210 => some (.csver false)
    | 0x214 => some (.csver true)
    | 0x300 => some .ractl
    | 0x304 => some .racnt
    | 0x308 => some .xfer
    | 0x400 => some .excst
    | 0x404 => some .irqpend
    | 0x408 => some (.irqlvl false)
    | 0x40C => some (.irqlvl true)
    | 0x410 => some .irqset
    | 0x414 => some .wdctl
    | 0x500 => some .dgsess
    | 0x700 => some .dbgctl
    | 0x704 => some .dbgst
    | _ => none

/-- A register of the gallery window. -/
def winReg (g : GalId) (off : Nat) : Option Reg :=
  if off < 0x1000 then (galReg off).map fun r => .gal g r
  else if off < 0x9000 then (seqReg (off % 0x1000)).map fun r => .seq (seqId g (Fin.ofNat 8 (off / 0x1000 - 1))) r
  else none

/-- Event router, 0x01_4000 up. -/
def routerReg (off : Nat) : Option Reg :=
  if off < 0x400 then some (.chsub (Fin.ofNat 256 (off / 4)))
  else if off < 0x500 then some (.evincfg (Fin.ofNat 64 ((off - 0x400) / 4)))
  else if off < 0x600 then some (.evocfg (Fin.ofNat 64 ((off - 0x500) / 4)))
  else if off < 0x800 then
    some (if off % 8 = 0 then .lutsel (Fin.ofNat 64 ((off - 0x600) / 8)) else .lutctl (Fin.ofNat 64 ((off - 0x600) / 8)))
  else if off < 0x820 then some (.evchovr (Fin.ofNat 8 ((off - 0x800) / 4)))
  else if off = 0x820 then some .evstat
  else if off = 0x830 then some .sclkratio
  else if 0xA00 ≤ off ∧ off < 0xB00 then some (.lutst (Fin.ofNat 64 ((off - 0xA00) / 4)))
  else none

/-- Always-on island, 0x01_C000 up. -/
def aonReg (off : Nat) : Option Reg :=
  if 0x40 ≤ off ∧ off < 0x80 then
    some (if off % 8 = 0 then .xtsrc (Fin.ofNat 8 ((off - 0x40) / 8)) else .xtdst (Fin.ofNat 8 ((off - 0x40) / 8)))
  else if 0x100 ≤ off ∧ off < 0x180 then
    let u : Fin 8 := Fin.ofNat 8 ((off - 0x100) / 0x10)
    match off % 0x10 with
    | 0 => some (.bpl u)
    | 4 => some (.bph u)
    | 8 => some (.bpc u)
    | _ => none
  else match off with
    | 0x00 => some .lntcfg
    | 0x04 => some .dbgemu
    | 0x08 => some .ewdctl
    | 0x0C => some .ewdkick
    | 0x80 => some .xtst
    | _ => none

/-- Plant governor and tick generator, 0x01_0000 up. -/
def plantReg (off : Nat) : Option Reg :=
  if 0x10 ≤ off ∧ off < 0x28 then some (.plant (Fin.ofNat 14 ((off - 0x10) / 4)))
  else if 0x40 ≤ off ∧ off < 0x60 then some (.plant (Fin.ofNat 14 (6 + (off - 0x40) / 4)))
  else match off with
    | 0x00 => some .tickcfg
    | 0x04 => some .tickctl
    | 0x08 => some (.ticknum false)
    | 0x0C => some (.ticknum true)
    | 0x28 => some .thstate
    | 0x2C => some .plantin
    | 0x30 => some .plantst
    | 0x34 => some .holdcfg
    | 0x38 => some .holdst
    | _ => none

/-- The other global blocks, by offset from 0x01_0000. -/
def globalReg (off : Nat) : Option Reg :=
  match off with
  | 0x2000 => some .ledgst
  | 0x2004 => some .ledgctl
  | 0x2008 => some .ledgsel
  | 0x200C => some .ledgval
  | 0x2010 => some .ledgtick
  | 0x6000 => some .bbst
  | 0x6004 => some .bbnew
  | 0x6008 => some .bbcom
  | 0x600C => some .bbcfg
  | 0x6020 => some .trctl
  | 0x6024 => some .trst
  | 0x6030 => some (.trseq 0)
  | 0x6034 => some (.trseq 1)
  | 0x6038 => some (.trseq 2)
  | 0x603C => some (.trseq 3)
  | 0x8000 => some .ctxst
  | 0x8004 => some .ctxue
  | 0xA000 => some .mpfwver
  | 0xA004 => some .mpstg
  | 0xA008 => some .mpbank
  | 0xE100 => some .wkstat
  | 0xE200 => some .dgcfg
  | 0xE204 => some .dgstat
  | 0xE208 => some (.dgkeymask false)
  | 0xE20C => some (.dgkeymask true)
  | 0xE300 => some (.pdstat false)
  | 0xE304 => some (.pdstat true)
  | 0xE308 => some .pdcfg
  | 0xE310 => some .plwcfg
  | 0xE314 => some .plwst
  | 0xE318 => some .rstcause
  | _ => none

/-- Ranges open at all times: doorbells, engine status, host interrupts. -/
def openReg (a : Nat) : Option Reg :=
  match a with
  | 0x4000 => some (.mbdb false)
  | 0x4004 => some (.mbdb true)
  | 0x4008 => some (.mbbusy false)
  | 0x400C => some (.mbbusy true)
  | 0x4010 => some (.mbdone false)
  | 0x4014 => some (.mbdone true)
  | 0x4018 => some .mberr
  | 0x8000 => some .engid
  | 0x8004 => some .engver
  | 0x8008 => some .engst
  | 0x800C => some .engcfg
  | 0x8010 => some .hosterr
  | 0x9000 => some .hirq
  | 0x9004 => some .hirqen
  | _ => none

/-- The global register at an address of 0x01_0000 to 0x01_FFFF. -/
def blockReg (off : Nat) : Option Reg :=
  if off < 0x2000 then plantReg off
  else if 0x4000 ≤ off ∧ off < 0x6000 then routerReg (off - 0x4000)
  else if 0xC000 ≤ off ∧ off < 0xE000 then aonReg (off - 0xC000)
  else globalReg off

/-- What a word address of the host-port map is (R32, R33, R35). -/
inductive Spot where
  | mailbox (m : MbId) (off : Nat)
  | reg (r : Reg)
  | unmapped
  | down
  deriving DecidableEq, Repr

/-- The map, for an access that reaches the window ranges where `win`. The window of a present gallery whose logic domain is
off answers DOWN, be the maintenance window open or closed: R35 puts DOWN in the place of UNMAP (log 80). -/
def State.spot (s : State) (win : Bool) (a : Nat) : Spot :=
  let of_ (r : Option Reg) : Spot := match r with | some r => .reg r | none => .unmapped
  if a < 0x4000 then .mailbox (Fin.ofNat 64 (a / 0x100)) (a % 0x100)
  else if a < 0x10000 then of_ (openReg a)
  else if a < 0x20000 then if win then of_ (blockReg (a - 0x10000)) else .unmapped
  else if 0x40000 ≤ a ∧ a < 0x140000 then
    let g : GalId := Fin.ofNat 16 ((a - 0x40000) / 0x10000)
    if !s.present g then .unmapped
    else if !s.logicOn g then .down
    else if !win then .unmapped
    else of_ (winReg g ((a - 0x40000) % 0x10000))
  else .unmapped

/-! ### Values -/

def joinBits (l : List (Word × Nat)) : Word := l.foldl (fun w e => w ||| (e.1 <<< e.2)) 0
def natW (n : Nat) : Word := BitVec.ofNat 32 n
def flagW (b : Bool) : Word := ofB 32 b
def satW (top n : Nat) : Word := natW (Nat.min top n)

/-- A gallery register as PEEK gives it. -/
def State.galValue (s : State) (g : GalId) (r : GReg) : Word :=
  let x := s.gal g
  match r with
  | .phase => x.phase.setWidth 32
  | .tbud =>
    let allow : Nat := ((seqsOf g).map fun q => (s.seq q).bud.tokleft).sum
    joinBits [(x.weight.setWidth 32, 24), (flagW x.cut, 20), (natW (allow % 2 ^ 20), 0)]
  | .mapver => x.mapver
  | .raline =>
    (List.finRange 16).foldl (fun w i =>
      let l := x.lines[i]
      w ||| (flagW l.busy <<< (16 + i.val)) ||| (flagW (l.busy && decide (l.m ≤ l.bytes.length)) <<< i.val)) 0
  | .bankown hi => x.bankown hi
  | .bankret => x.bankret
  | .scrst => joinBits [(x.sce.setWidth 32, 24), (x.sue.setWidth 32, 16), (x.rterr.setWidth 32, 8), (flagW x.handerr, 0)]
  | .screaddr => x.screaddr
  | .ctxbanks => x.ctxbanks.setWidth 32
  | .rtbase => x.rtbase
  | .mdcfg => x.md.tmo.setWidth 32
  | .mdcred => joinBits [(natW x.md.rq, 24), (natW x.md.wd, 12), (natW x.md.rd, 0)]
  | .mdtags => joinBits [(natW (x.md.tags.countP fun t => t.orphan), 16), (natW (1024 - x.md.tags.length), 0)]
  | .mderr =>
    joinBits [(flagW x.md.crovf, 6), (flagW x.md.tmoErr, 5), (flagW x.md.declns, 4), (flagW x.md.badst, 3),
      (flagW x.md.dlenErr, 2), (flagW x.md.beat, 1), (flagW x.md.badtag, 0)]
  | .mdsump => joinBits [(satW 65535 x.md.sumpResp, 16), (satW 65535 (x.md.sumpBytes / 1024), 0)]
  | .tctl t => x.timers[t].ctl
  | .tstat t => x.timers[t].stat
  | .tcnt t hi => if hi then (x.timers[t].count.extractLsb' 32 16).setWidth 32 else x.timers[t].count.setWidth 32
  | .tcmp t hi => if hi then (x.timers[t].cmp.extractLsb' 32 16).setWidth 32 else x.timers[t].cmp.setWidth 32
  | .tcap t hi => if hi then (x.timers[t].cap.extractLsb' 32 16).setWidth 32 else x.timers[t].cap.setWidth 32
  | .tintv t => x.timers[t].intv
  | .gstat => joinBits [(x.deadleft.setWidth 32, 8), (natW x.gstate.code, 0)]
  | .stimen => x.stimen

def CsRegs.mcfault (c : CsRegs) : Word :=
  joinBits [(flagW c.mf, 31), (c.field.setWidth 32, 25), (c.cause.setWidth 32, 12), (c.uaddr.setWidth 32, 0)]

def Micro.ustat (m : Micro) : Word :=
  joinBits [(natW m.stack.length, 24), (m.cnt.setWidth 32, 12), (m.upc.setWidth 32, 0)]

def Exc.wdctl (e : Exc) : Word := joinBits [(e.wdcount.setWidth 32, 16), (e.wdperiod.setWidth 32, 0)]

def EvSlot.value (e : EvSlot) : Word :=
  joinBits [(flagW e.v, 31), (flagW e.ovr, 15), (e.pend.setWidth 32, 8), (e.ch.setWidth 32, 0)]

/-- DGSESS of the bound context's session. -/
def State.dgsess (s : State) (q : SeqId) : Word :=
  let c := (s.regs q).ctxid
  if c = 0xFFFF then 0 else
  match s.sessionOf c with
  | none => 0
  | some i =>
    let x := s.dg.ses[i]
    joinBits [(1, 31), (flagW x.hmac, 30), (x.alg.setWidth 32, 28), (x.slot.setWidth 32, 20), (x.err.setWidth 32, 16),
      (flagW (s.dg.holder == some i), 8), (natW x.buf.length, 0)]

/-- A sequencer register as PEEK gives it. -/
def State.seqValue (s : State) (q : SeqId) (r : QReg) : Word :=
  let x := s.seq q
  match r with
  | .budcyc => joinBits [(flagW x.bud.stall, 31), (flagW x.bud.budx, 30), (natW (x.bud.cdebt % 512), 21), (natW (x.bud.cycleft % 2 ^ 21), 0)]
  | .budtok => joinBits [(natW (x.bud.tdebt % 512), 20), (natW (x.bud.tokleft % 2 ^ 17), 0)]
  | .mcfault => x.cs.mcfault
  | .csecc => joinBits [(x.cs.ce.setWidth 32, 24), (x.cs.mce.setWidth 32, 16), (x.cs.ceaddr.setWidth 32, 0)]
  | .ustat => x.mic.ustat
  | .csver hi => if hi then x.cs.csver.extractLsb' 32 32 else x.cs.csver.setWidth 32
  | .ractl => joinBits [(flagW x.ra.en, 31), (x.ra.age.setWidth 32, 16), (x.ra.maxl.setWidth 32, 12), (x.ra.thresh.setWidth 32, 0)]
  | .racnt => joinBits [(x.ra.issued.setWidth 32, 24), (x.ra.bound.setWidth 32, 16), (x.ra.decl.setWidth 32, 8), (x.ra.rel.setWidth 32, 0)]
  | .xfer => if x.regs.ctxid = 0xFFFF then 0 else natW (s.ctxXcnt x.regs.ctxid % 128)
  | .excst => x.exc.excst
  | .irqpend => x.exc.irqpend.setWidth 32
  | .irqlvl hi => if hi then x.exc.irqlvl1 else x.exc.irqlvl0
  | .irqset => 0
  | .wdctl => x.exc.wdctl
  | .dgsess => s.dgsess q
  | .evslot n => x.slots[n].value
  | .dbgctl => joinBits [(flagW x.dbg.brkhalt, 3), (flagW x.dbg.ubrken, 2)]
  | .dbgst =>
    joinBits [(flagW x.dbg.halted, 31), (flagW x.dbg.defer, 30), (flagW x.dbg.forced, 29), (x.dbg.bpu.setWidth 32, 26),
      (x.dbg.why.setWidth 32, 23), (x.dbg.defcnt.setWidth 32, 16), (x.dbg.brkcode.setWidth 32, 0)]

/-- ENGST (R36). -/
def State.engst (s : State) : Word :=
  joinBits [(s.galsvc.setWidth 32, 16), (natW s.eng.state.code, 4), (flagW s.eng.mpbusy, 3), (flagW s.eng.win, 2),
    (flagW (s.eng.state == .service), 1), (flagW s.eng.ready, 0)]

/-- ENGCFG (R36). -/
def State.engcfg (s : State) : Word :=
  joinBits [(flagW s.eng.bisten, 23), (flagW s.variant.aotmr, 22), (natW s.variant.npd, 16), (natW (8 * s.variant.ngal), 8),
    (natW s.variant.ngal, 0)]

/-- THSTATE: the nodes in 1/16 degC, the enclosure in whole degC. -/
def Plant.thstate (p : Plant) : Word :=
  joinBits [((BitVec.ofInt 12 (p.td / 4096)).setWidth 32, 20), ((BitVec.ofInt 12 (p.tp / 4096)).setWidth 32, 8),
    ((BitVec.ofInt 8 (p.te / 65536)).setWidth 32, 0)]

def EvIn.value (x : EvIn) : Word :=
  joinBits [(flagW x.stuck, 31), (flagW x.ovr, 30), (flagW x.lvl, 29), (x.stuckt.setWidth 32, 16), (x.ch.setWidth 32, 8),
    (x.mode.setWidth 32, 0)]

def EvOut.value (x : EvOut) : Word :=
  joinBits [(flagW x.mode, 31), (x.lut.setWidth 32, 24), (x.pw.setWidth 32, 8), (x.pend.setWidth 32, 4), (flagW x.ovr, 3)]

def Router.evstat (r : Router) : Word :=
  joinBits [(r.drop.setWidth 32, 24), (flagW r.luterr, 4), (flagW r.pinerr, 3), (flagW r.suberr, 2), (flagW r.anyovr, 1)]

def Recorder.bbst (r : Recorder) : Word :=
  joinBits [(r.lost.setWidth 32, 24), (r.credit.setWidth 32, 16), (natW (r.staging.countP fun x => !x.committed), 0)]

def Mp.mpbank (m : Mp) : Word :=
  joinBits [(flagW m.fallbk, 3), (flagW m.up, 2), (flagW m.b1valid, 1), (flagW m.bank, 0)]

/-- HOLDST. -/
def Power.holdst (p : Power) : Word := joinBits [(flagW p.holdlow, 24), (p.hold.setWidth 32, 0)]

/-- CTXST. -/
def State.ctxst (s : State) : Word :=
  joinBits [(s.work.cce.setWidth 32, 24), (flagW s.work.cue, 23), (natW s.ctxOpenCount, 0)]

/-- PLANTST. -/
def Power.plantst (p : Power) : Word := joinBits [(flagW p.ramped, 25), (flagW p.stale, 24), (p.etok.setWidth 32, 0)]

/-- TICKCTL. -/
def Plant.tickctl (p : Plant) : Word := joinBits [(flagW p.tickerr, 16), (p.tguard.setWidth 32, 0)]

/-- EWDCTL.COUNT: the sclk periods left, somewhere between the last reload and 0, since no row is a tick of sclk (log 97). -/
def State.ewdLeft (s : State) : Half := BitVec.ofNat 16 (1 + Config.freeChoice s.freeCtr % s.aon.ewdCount.toNat)

/-- A register as PEEK gives it (R374): live, without effect; write-only fields read 0. -/
def State.regValue (s : State) (r : Reg) : Word :=
  match r with
  | .mbdb _ => 0
  | .mbbusy hi => if hi then s.mb.busy.extractLsb' 32 32 else s.mb.busy.setWidth 32
  | .mbdone hi => if hi then s.mb.done.extractLsb' 32 32 else s.mb.done.setWidth 32
  | .mberr => joinBits [(s.mb.errBox.setWidth 32, 8), (flagW s.mb.outwr, 2), (flagW s.mb.inwr, 1), (flagW s.mb.dbbusy, 0)]
  | .engid => 0x4D1753AF
  | .engver => 0x01000000
  | .engst => s.engst
  | .engcfg => s.engcfg
  | .hosterr => joinBits [(s.eng.heAddr.setWidth 32, 8), (flagW s.eng.heDown, 2), (flagW s.eng.heAlign, 1), (flagW s.eng.heUnmap, 0)]
  | .hirq => s.eng.hirq.setWidth 32
  | .hirqen => s.eng.hirqen.setWidth 32
  | .tickcfg => joinBits [(s.plant.mhz.setWidth 32, 21), (s.plant.period.setWidth 32, 0)]
  | .tickctl => s.plant.tickctl
  | .ticknum hi => if hi then (s.plant.ticknum.extractLsb' 32 16).setWidth 32 else s.plant.ticknum.setWidth 32
  | .plant i => s.plantWord i.val
  | .thstate => s.plant.thstate
  | .plantin => s.pow.grant.setWidth 32
  | .plantst => s.pow.plantst
  | .holdcfg => s.pow.holdcfg
  | .holdst => s.pow.holdst
  | .ledgst => s.ledger.ledgst
  | .ledgctl => 0
  | .ledgsel => s.ledger.sel
  | .ledgval => s.ledgval
  | .ledgtick => s.ledger.tick
  | .chsub n => s.ev.chsub[n]
  | .evincfg i => s.ev.ins[i].value
  | .evocfg i => s.ev.outs[i].value
  | .lutsel j => s.ev.cells[j].sel
  | .lutctl j => s.ev.cells[j].ctl
  | .lutst j => s.ev.cells[j].lutst
  | .evchovr k => s.ev.chovr[k]
  | .evstat => s.ev.evstat
  | .sclkratio => s.ev.ratio.setWidth 32
  | .bbst => s.recd.bbst
  | .bbnew => s.recd.newest
  | .bbcom => s.recd.newCom
  | .bbcfg => s.recd.burst.setWidth 32
  | .trctl => s.trace.ctl
  | .trst => joinBits [(s.trace.lost.setWidth 32, 16), (natW (256 - s.trace.fifo.length), 0)]
  | .trseq k => s.trace.seqs.extractLsb' (32 * k.val) 32
  | .ctxst => s.ctxst
  | .ctxue => s.work.cueEntry.setWidth 32
  | .mpfwver => s.mp.fwver
  | .mpstg => s.mp.stgBase.setWidth 32
  | .mpbank => s.mp.mpbank
  | .lntcfg => joinBits [(flagW s.aon.lock, 31), (flagW s.aon.att, 16), (s.aon.slot.setWidth 32, 0)]
  | .dbgemu => joinBits [(flagW s.aon.haltpwr0, 16), (s.aon.emu.setWidth 32, 0)]
  | .ewdctl => joinBits [(s.ewdLeft.setWidth 32, 16), (s.aon.ewdPeriod.setWidth 32, 0)]
  | .ewdkick => 0
  | .xtsrc r => s.aon.xtsrc[r]
  | .xtdst r => s.aon.xtdst[r]
  | .xtst => joinBits [(s.aon.fired.setWidth 32, 8), (s.ropesArmed.setWidth 32, 0)]
  | .bpl u => s.mp.bpAddrL[u]
  | .bph u => s.mp.bpAddrH[u]
  | .bpc u => s.mp.bpCtl[u]
  | .wkstat => joinBits [(s.work.badd.setWidth 32, 24), (natW s.work.cfree, 16), (s.wkReadyMask.setWidth 32, 0)]
  | .dgcfg => joinBits [(s.dg.txtmo.setWidth 32, 16), (s.dg.cmptmo.setWidth 32, 0)]
  | .dgstat => joinBits [(s.dg.glitch.setWidth 32, 24), (s.dg.tmo.setWidth 32, 16), (natW (s.dg.ses.toList.countP fun x => x.opened), 0)]
  | .dgkeymask hi => if hi then s.dg.mask1 else s.dg.mask0
  | .pdstat hi => if hi then (s.pd.on.extractLsb' 32 8).setWidth 32 else s.pd.on.setWidth 32
  | .pdcfg => joinBits [(flagW s.pd.pderr, 31), (s.pd.errpd.setWidth 32, 24), (s.pd.acktmo.setWidth 32, 0)]
  | .plwcfg => s.pd.wrwait.setWidth 32
  | .plwst => joinBits [(flagW s.pd.active, 31), (flagW s.pd.done, 30), (s.pd.elapsed.setWidth 32, 0)]
  | .rstcause => s.eng.rstcause.setWidth 32
  | .gal g r => s.galValue g r
  | .seq q r => s.seqValue q r

/-! ### Reads (R10, R34) -/

/-- What a real read of a gallery register returns: a latched high word, else the live value. -/
def State.galRead (s : State) (g : GalId) (r : GReg) : Word :=
  match r with
  | .tcnt t true => ((s.gal g).timers[t].cntLatch).setWidth 32
  | .tcmp t true => ((s.gal g).timers[t].cmpLatch).setWidth 32
  | .tcap t true => ((s.gal g).timers[t].capLatch).setWidth 32
  | r => s.galValue g r

/-- What a real read returns. -/
def State.regRead (s : State) (r : Reg) : Word :=
  match r with
  | .ticknum true => s.plant.numhLatch.setWidth 32
  | .gal g r => s.galRead g r
  | r => s.regValue r

/-- The latch of a read of CNT low. -/
def Timer.readCnt (t : Timer) : Timer := { t with cntLatch := t.count.extractLsb' 32 16 }
/-- The latch of a read of CMP low. -/
def Timer.readCmp (t : Timer) : Timer := { t with cmpLatch := t.cmp.extractLsb' 32 16 }

/-- Effects of a read of a gallery register. -/
def State.galReadFx (s : State) (g : GalId) (r : GReg) : State :=
  match r with
  | .scrst => s.modGal g fun x => { x with sce := 0, sue := 0 }
  | .mdsump => s.modMd g fun m => { m with sumpResp := 0, sumpBytes := m.sumpBytes % 1024 }
  | .tcnt t false => s.modTimer g t Timer.readCnt
  | .tcmp t false => s.modTimer g t Timer.readCmp
  | .tcap t false => s.modTimer g t Timer.readCap
  | _ => s

/-- Effects of a read of a sequencer register. -/
def State.seqReadFx (s : State) (q : SeqId) (r : QReg) : State :=
  match r with
  | .csecc => s.modSeq q fun x => { x with cs := { x.cs with ce := 0, mce := 0 } }
  | .racnt => s.modSeq q fun x => { x with ra := { x.ra with issued := 0, bound := 0, decl := 0, rel := 0 } }
  | _ => s

/-- The RC, RS and latch effects of a real read. -/
def State.readFx (s : State) (r : Reg) : State :=
  match r with
  | .ticknum false => { s with plant := { s.plant with numhLatch := s.plant.ticknum.extractLsb' 32 16 } }
  | .ledgst => { s with ledger := { s.ledger with ce := 0 } }
  | .evstat => { s with ev := { s.ev with drop := 0 } }
  | .bbst => { s with recd := { s.recd with lost := 0 } }
  | .trst => { s with trace := { s.trace with lost := 0 } }
  | .ctxst => { s with work := { s.work with cce := 0 } }
  | .wkstat => { s with work := { s.work with badd := 0 } }
  | .dgstat => { s with dg := { s.dg with glitch := 0, tmo := 0 } }
  | .gal g r => s.galReadFx g r
  | .seq q r => s.seqReadFx q r
  | _ => s

/-! ### Writes (R10) -/

/-- A write of EVINCFGi; MODE 5 to 7 stores 0 (R297). -/
def EvIn.write (x : EvIn) (v : Word) : EvIn :=
  let m : BitVec 3 := v.setWidth 3
  let y : EvIn := { x with
    ovr := x.ovr && !bit v 30, stuckt := v.extractLsb' 16 8, ch := v.extractLsb' 8 8, mode := if 4 < m.toNat then 0 else m }
  y.atLevel x.lvl

/-- A write of EVOCFGi; PW of 0 stores 1; the pin is at its mode's level. -/
def State.evocfgWrite (s : State) (i : Fin 64) (v : Word) : State :=
  let x := s.ev.outs[i]
  let lut : BitVec 6 := v.extractLsb' 24 6
  let pw : Byte := v.extractLsb' 8 8
  let y : EvOut := { x with
    mode := bit v 31, lut := lut, pw := if pw = 0 then 1 else pw, ovr := x.ovr && !bit v 3
    level := bit v 31 && (s.ev.cells.toList.getD lut.toNat {}).out }
  { s with ev := { s.ev with outs := s.ev.outs.set i y } }

def State.lutselWrite (s : State) (j : Fin 64) (v : Word) : State :=
  let c : Cell := s.ev.cells[j]
  let c' : Cell := { c with sel := v }
  { s with ev := { s.ev with cells := s.ev.cells.set j c' } }

/-- A write of RACTL: AGE and THRESH of 0 store 1, MAXL above 8 stores 8. -/
def Ra.write (x : Ra) (v : Word) : Ra :=
  let age : Byte := v.extractLsb' 16 8
  let maxl : BitVec 4 := v.extractLsb' 12 4
  let th : BitVec 10 := v.extractLsb' 0 10
  { x with en := bit v 31, age := if age = 0 then 1 else age, maxl := if 8 < maxl.toNat then 8 else maxl, thresh := if th = 0 then 1 else th }

/-- A write of DBGCTL: BRKHALT and UBRKEN, then HALT, then RESUME. -/
def State.dbgctlWrite (s : State) (q : SeqId) (v : Word) : State :=
  let s := s.modSeq q fun x => { x with dbg := { x.dbg with brkhalt := bit v 3, ubrken := bit v 2 } }
  let s := if bit v 0 then s.haltRequest q else s
  if bit v 1 then s.resumeSeq q else s

/-- A write of a gallery register by an agent. -/
def State.galWrite (s : State) (g : GalId) (r : GReg) (v : Word) (a : Agent) : State :=
  match r with
  | .phase => s.phaseWrite g v
  | .tbud => s.modGal g fun x => { x with weight := v.extractLsb' 24 8 }
  | .bankown hi => s.modGal g fun x => x.writeOwn hi v a
  | .bankret => s.modGal g fun x => x.writeRet v a
  | .scrst => s.modGal g fun x => { x with handerr := x.handerr && !bit v 0 }
  | .ctxbanks => s.modGal g fun x => { x with ctxbanks := v.setWidth 16 }
  | .rtbase => s.setRtbase g v
  | .mdcfg => s.modMd g fun m => { m with tmo := if v.setWidth 16 = 0#16 then 1 else v.setWidth 16 }
  | .mderr => s.modMd g fun m => { m with
      crovf := m.crovf && !bit v 6, tmoErr := m.tmoErr && !bit v 5, declns := m.declns && !bit v 4, badst := m.badst && !bit v 3
      dlenErr := m.dlenErr && !bit v 2, beat := m.beat && !bit v 1, badtag := m.badtag && !bit v 0 }
  | .tctl t => s.timerCtl g t v
  | .tstat t => s.modTimer g t fun x => x.writeStat v
  | .tcnt t hi => s.timerCount g t hi v
  | .tcmp t hi => s.timerCmp g t hi v
  | .tintv t => s.modTimer g t fun x => { x with intv := v }
  | .stimen => s.modGal g fun x => { x with stimen := v }
  | .mapver | .raline | .screaddr | .mdcred | .mdtags | .mdsump | .tcap _ _ | .gstat => s

/-- A write of a sequencer register. -/
def State.seqWrite (s : State) (q : SeqId) (r : QReg) (v : Word) : State :=
  match r with
  | .mcfault => if bit v 30 then s.mcRestart q else s
  | .ractl => s.modSeq q fun x => { x with ra := x.ra.write v }
  | .irqlvl hi => s.modSeq q fun x => { x with exc := if hi then { x.exc with irqlvl1 := v &&& 0x77777777 } else { x.exc with irqlvl0 := v &&& 0x77777777 } }
  | .irqset => s.modSeq q fun x => { x with exc := x.exc.setSoft v }
  | .wdctl => s.modSeq q fun x => { x with exc := { x.exc with wdperiod := if v.setWidth 16 = 0#16 then 1 else v.setWidth 16 } }
  | .evslot n => s.modSeq q fun x =>
      let e : EvSlot := x.slots[n]
      let e' : EvSlot := { e with ovr := e.ovr && !bit v 15 }
      { x with slots := x.slots.set n e' }
  | .dbgctl => s.dbgctlWrite q v
  | .dbgst => s.modSeq q fun x => { x with dbg := { x.dbg with forced := x.dbg.forced && !bit v 29 } }
  | .budcyc | .budtok | .csecc | .ustat | .csver _ | .racnt | .xfer | .excst | .irqpend | .dgsess => s

/-- DBGEMU keeps the bits of present galleries from 1 up (R379). -/
def State.emuMask (s : State) : Half :=
  (List.finRange 16).foldl (fun w g => if s.present g && g.val != 0 then w ||| (1#16 <<< g.val) else w) 0

/-- A write of DGCFG: TXTMO below 160 stores 160, CMPTMO of 0 stores 1. -/
def Dg.writeCfg (x : Dg) (v : Word) : Dg :=
  let tx : BitVec 10 := v.extractLsb' 16 10
  let cm : BitVec 10 := v.extractLsb' 0 10
  { x with txtmo := if tx.toNat < 160 then 160 else tx, cmptmo := if cm = 0 then 1 else cm }

/-- TRSEQk. -/
def Trace.writeSeq (t : Trace) (k : Fin 4) (v : Word) : Trace := { t with seqs := putBits t.seqs (32 * k.val) v }

/-- A write of a register outside the gallery windows and the doorbells. -/
def State.globWrite (s : State) (r : Reg) (v : Word) (a : Agent) : State :=
  match r with
  | .mbdone hi =>
    let m : DWord := if hi then v.setWidth 64 <<< 32 else v.setWidth 64
    { s with mb := { s.mb with done := s.mb.done &&& ~~~m } }
  | .mberr => { s with mb := { s.mb with outwr := s.mb.outwr && !bit v 2, inwr := s.mb.inwr && !bit v 1, dbbusy := s.mb.dbbusy && !bit v 0 } }
  | .hosterr => { s with eng := { s.eng with heDown := s.eng.heDown && !bit v 2, heAlign := s.eng.heAlign && !bit v 1, heUnmap := s.eng.heUnmap && !bit v 0 } }
  | .hirq => { s with eng := { s.eng with hirq := s.eng.hirq &&& ~~~(v.setWidth 10) } }
  | .hirqen => { s with eng := { s.eng with hirqen := v.setWidth 10 } }
  | .tickcfg => { s with plant := { s.plant with pendCfg := some v } }
  | .tickctl => { s with plant := { s.plant with pendGuard := some (v.setWidth 12), tickerr := s.plant.tickerr && !bit v 16 } }
  | .plant i => s.setPlantWord i.val v
  | .holdcfg => s.writeHoldcfg v
  | .holdst => { s with pow := { s.pow with holdlow := s.pow.holdlow && !bit v 24 } }
  | .ledgst => { s with ledger := { s.ledger with mainterr := s.ledger.mainterr && !bit v 6, ue := s.ledger.ue && !bit v 5, mismatch := s.ledger.mismatch && !bit v 4 } }
  | .ledgctl => if bit v 0 then s.rearm else s
  | .ledgsel => { s with ledger := { s.ledger with sel := v &&& 0x000FFF0F } }
  | .ledgval => s.ledgvalWrite v
  | .chsub n => s.chsubWrite (BitVec.ofNat 8 n.val) v
  | .evincfg i => s.modIn i fun x => x.write v
  | .evocfg i => s.evocfgWrite i v
  | .lutsel j => s.lutselWrite j v
  | .lutctl j => s.lutctlWrite j v
  | .lutst j => if bit v 30 then s.clearForced j else s
  | .evchovr k => { s with ev := { s.ev with chovr := s.ev.chovr.set k (s.ev.chovr[k] &&& ~~~v) } }
  | .evstat => { s with ev := { s.ev with luterr := s.ev.luterr && !bit v 4, pinerr := s.ev.pinerr && !bit v 3, suberr := s.ev.suberr && !bit v 2, anyovr := s.ev.anyovr && !bit v 1 } }
  | .sclkratio => { s with ev := { s.ev with ratio := v.setWidth 24 } }
  | .bbcfg => { s with recd := { s.recd with burst := if v.setWidth 8 = 0#8 then 1 else v.setWidth 8 } }
  | .trctl => { s with trace := { s.trace with ctl := v &&& 0x80FF003F } }
  | .trseq k => { s with trace := s.trace.writeSeq k v }
  | .ctxst => { s with work := { s.work with cue := s.work.cue && !bit v 23 } }
  | .mpbank => { s with mp := { s.mp with fallbk := s.mp.fallbk && !bit v 3 } }
  | .lntcfg => { s with aon := { s.aon with lock := s.aon.lock || bit v 31, slot := v.setWidth 8 } }
  | .dbgemu => { s with aon := { s.aon with haltpwr0 := bit v 16, emu := v.setWidth 16 &&& s.emuMask } }
  | .ewdctl => { s with aon := { s.aon with ewdPeriod := if v.setWidth 16 = 0#16 then 1 else v.setWidth 16 } }
  | .ewdkick => s.ewdKick v a
  | .xtsrc r => { s with aon := { s.aon with xtsrc := s.aon.xtsrc.set r (v &&& 0xFFFF0007) } }
  | .xtdst r => { s with aon := { s.aon with xtdst := s.aon.xtdst.set r v } }
  | .xtst => { s with aon := { s.aon with fired := s.aon.fired &&& ~~~(v.extractLsb' 8 8) } }
  | .bpl u => { s with mp := { s.mp with bpAddrL := s.mp.bpAddrL.set u (v &&& 0xFFFFFFFC) } }
  | .bph u => { s with mp := { s.mp with bpAddrH := s.mp.bpAddrH.set u (v &&& 0x800FFFFF) } }
  | .bpc u => { s with mp := { s.mp with bpCtl := s.mp.bpCtl.set u v } }
  | .dgcfg => { s with dg := s.dg.writeCfg v }
  | .dgkeymask hi => { s with dg := if hi then { s.dg with mask1 := v } else { s.dg with mask0 := v } }
  | .pdcfg => { s with pd := { s.pd with pderr := s.pd.pderr && !bit v 31, acktmo := if v.setWidth 16 = 0#16 then 1 else v.setWidth 16 } }
  | .plwcfg => { s with pd := { s.pd with wrwait := if 1800 < (v.setWidth 16 : Half).toNat then 1800 else v.setWidth 16 } }
  | .plwst => { s with pd := { s.pd with done := s.pd.done && !bit v 30 } }
  | .rstcause => { s with eng := { s.eng with rstcause := s.eng.rstcause &&& ~~~(v.setWidth 5) } }
  | .gal g r => s.galWrite g r v a
  | .seq q r => s.seqWrite q r v
  | _ => s

end Sys2Proof.Machine
end

