-- ==== Sys2Proof/Machine/Mailbox.lean ====
section
/-!
DEFINITION. Doorbells and the order of service (R315 to R318), the checks that every message passes (R320), and the host port's
own accesses (R10, R31 to R38, R312).
-/

namespace Sys2Proof.Machine

open Sys2Proof

/-! ### Doorbells (R315 to R317) -/

/-- A doorbell for a busy mailbox. -/
def State.dbBusy (s : State) (m : MbId) : State :=
  { s with mb := { s.mb with dbbusy := true, errBox := BitVec.ofNat 6 m.val } }

/-- A message is committed and waits for the MP; one that fails the checks of R320 is answered when it comes to the front. -/
def State.commitMsg (s : State) (m : MbId) : State :=
  let s := { s with mb := { s.mb with
    busy := putBit s.mb.busy m.val true, done := putBit s.mb.done m.val false, rotor := Fin.ofNat 64 (m.val + 1) } }
  ({ s with mb := { s.mb with queue := s.mb.queue ++ [m] } } : State).answerFaulty

/-- The mailboxes in the order of the tie rotor (R398). -/
def mbOrder (rotor : MbId) : List MbId := (List.range 64).map fun k => Fin.ofNat 64 (rotor.val + k)

/-- A doorbell write: BUSY is judged before any message of it is committed. -/
def State.doorbell (s : State) (high : Bool) (v : Word) : State :=
  let rung (m : MbId) : Bool := decide (m.val / 32 = if high then 1 else 0) && bit v (m.val % 32)
  let busy (m : MbId) : Bool := bit s.mb.busy m.val
  let down := !s.eng.ready || s.eng.mpbusy
  let ms := (mbOrder s.mb.rotor).filter fun m => rung m && !busy m
  let late := (List.finRange 64).filter fun m => rung m && busy m
  let s := s.each late State.dbBusy
  s.each ms fun s m => if down then s.reply m mbBUSY else s.commitMsg m

/-- DOORBELL (R315). -/
def execDoorbell (high : Bool) (v : Word) (s : State) : Out State := .next (s.doorbell high v)

/-! ### The MP takes a message (R318, R320) -/

/-- The message waits for a write at the next reference tick boundary. -/
def BoundaryWrite.box : BoundaryWrite → MbId
  | .plant m _ _ => m
  | .hold m _ => m
  | .tick m _ _ _ => m
  | .stagger _ m => m

/-- The MP runs command `code` from mailbox m: it is first in the queue and has not been started. -/
def State.taken (s : State) (m : MbId) (code : Nat) : Bool :=
  s.eng.ready && !s.eng.mpbusy && s.mb.queue.head? == some m && s.mbField m 0 2 == code
    && !(s.plant.writes.any fun w => w.box == m) && !(s.mp.stepping.any fun e => e.2.1 == m)

/-- A check of a command: whether it fails, and the STATUS and DETAIL it answers then. -/
abbrev Check := Bool × Byte × Nat

/-- A command at the MP: the state check 6 of R320 (and R343), then its own checks in order, then its effect. -/
def State.command (s : State) (m : MbId) (code : Nat) (stateOk : Bool) (checks : List Check) (body : State → State)
    (afterBist : Bool := false) : State :=
  if !s.taken m code then s
  else if !stateOk || (s.eng.bistDead && !afterBist) then s.reply m mbSTATE s.eng.state.code
  else match checks.find? fun c => c.1 with
    | some (_, st, detail) => s.reply m st detail
    | none => body s

/-- A field that must be zero. -/
def State.zeroAt (s : State) (m : MbId) (off n : Nat) : Check := (s.arg m off n != 0, mbBADARG, off)

/-- A field that fails with BADARG. -/
def badIf (b : Bool) (off : Nat) : Check := (b, mbBADARG, off)

/-- A long command leaves the queue; its mailbox stays busy (R318). -/
def State.behind (s : State) (m : MbId) : State :=
  ({ s with mb := { s.mb with queue := s.mb.queue.filter (· != m) } } : State).answerFaulty

/-- A transfer of the MP: OK, and the command goes on; else it answers TIMEOUT with the outcome code (R402). -/
def State.xferDo (s : State) (m : MbId) (x : MpXfer) (g : GalId) (write : Bool) (addr len : Nat) (body : State → State) : State :=
  let s := s.mpAnswered g write addr len x
  match xferBad x with
  | none => body s
  | some code => s.reply m mbTIMEOUT code

/-! ### The host port (R31 to R38) -/

/-- HOSTERR bits. -/
inductive HostErr where
  | unmap | align | down
  deriving DecidableEq, Repr

/-- An error event: its bit, the address and HIRQ.HOSTERR; an access to HOSTERR itself sets none (R38). DESIGN CHOICE (log 81):
that holds of a misaligned access to 0x8011-0x8013 too, which has the error response and sets no bit. -/
def State.hostErr (s : State) (a : BitVec 21) (e : HostErr) : State :=
  if a.toNat / 4 = 0x8010 / 4 then s else
  let x := s.eng
  let y : Eng := { x with
    heAddr := a, heUnmap := x.heUnmap || e == .unmap, heAlign := x.heAlign || e == .align, heDown := x.heDown || e == .down }
  ({ s with eng := y } : State).hirq hirqHosterr

/-- The error response of a misaligned access (R31). -/
def State.hostMisaligned (s : State) (a : BitVec 21) : State :=
  ({ s with eng := { s.eng with hpErr := true } } : State).hostErr a .align

/-- A host write to a mailbox word (R312, R315). -/
def State.mailboxWrite (s : State) (m : MbId) (off : Nat) (v : Word) : State :=
  let box : BitVec 6 := BitVec.ofNat 6 m.val
  if 0x80 ≤ off then { s with mb := { s.mb with outwr := true, errBox := box } }
  else if bit s.mb.busy m.val then { s with mb := { s.mb with inwr := true, errBox := box } }
  else { s with mb := { s.mb with bytes := s.mb.bytes.writeLE (m.val * 256 + off) 4 v.toNat } }

/-- A host read. -/
def State.hostRead (s : State) (a : BitVec 21) : State :=
  if a.toNat % 4 ≠ 0 then s.hostMisaligned a else
  match s.spot s.eng.win a.toNat with
  | .mailbox m off => s.answer (BitVec.ofNat 32 (s.mb.bytes.readLE (m.val * 256 + off) 4))
  | .reg r => (s.answer (s.regRead r)).readFx r
  | .unmapped => (s.answer 0).hostErr a .unmap
  | .down => (s.answer 0).hostErr a .down

/-- REGISTER_READ. -/
def execRegisterRead (addr : BitVec 21) (s : State) : Out State := .next (s.hostRead addr)

/-- A write of a register, the doorbells among them. -/
def State.regWrite (s : State) (r : Reg) (v : Word) (a : Agent) : State :=
  match r with
  | .mbdb hi => s.doorbell hi v
  | r => s.globWrite r v a

/-- A host write. -/
def State.hostWrite (s : State) (a : BitVec 21) (v : Word) : State :=
  if a.toNat % 4 ≠ 0 then s.hostMisaligned a else
  let s := { s with eng := { s.eng with hpErr := false } }
  match s.spot s.eng.win a.toNat with
  | .mailbox m off => s.mailboxWrite m off v
  | .reg r => s.regWrite r v .host
  | .unmapped => s.hostErr a .unmap
  | .down => s.hostErr a .down

/-- REGISTER_WRITE. -/
def execRegisterWrite (addr : BitVec 21) (v : Word) (s : State) : Out State := .next (s.hostWrite addr v)

end Sys2Proof.Machine
end

