-- ==== Sys2Proof/Machine/Microword.lean ====
section
/-!
DEFINITION. The microword: its fields (R67), the checks made at each issue (R68, R95) and the debit class codes (R49).
-/

namespace Sys2Proof.Machine

open Sys2Proof

/-! ### Fields (R67) -/

def mwNac (w : MicroWord) : Nat := (w.extractLsb' 188 4).toNat
def mwTgt (w : MicroWord) : BitVec 12 := w.extractLsb' 176 12
def mwCsel (w : MicroWord) : Nat := (w.extractLsb' 169 7).toNat
def mwCpol (w : MicroWord) : Bool := bit w 168
def mwAluop (w : MicroWord) : BitVec 6 := w.extractLsb' 162 6
def mwAsrc (w : MicroWord) : Nat := (w.extractLsb' 156 6).toNat
def mwBsrc (w : MicroWord) : Nat := (w.extractLsb' 150 6).toNat
def mwDst (w : MicroWord) : Nat := (w.extractLsb' 144 6).toNat
def mwShf (w : MicroWord) : Nat := (w.extractLsb' 139 5).toNat
def mwFlg (w : MicroWord) : BitVec 6 := w.extractLsb' 133 6
def mwLit (w : MicroWord) : Half := w.extractLsb' 117 16
def mwMem (w : MicroWord) : Half := w.extractLsb' 101 16
def mwMul (w : MicroWord) : Byte := w.extractLsb' 93 8
def mwPool (w : MicroWord) : Byte := w.extractLsb' 85 8
def mwStrm (w : MicroWord) : BitVec 24 := w.extractLsb' 61 24
def mwMprt (w : MicroWord) : BitVec 12 := w.extractLsb' 49 12
def mwSeg (w : MicroWord) : BitVec 6 := w.extractLsb' 43 6
def mwEvt (w : MicroWord) : Byte := w.extractLsb' 35 8
def mwBud (w : MicroWord) : Nat := (w.extractLsb' 31 4).toNat
def mwCnt (w : MicroWord) : BitVec 6 := w.extractLsb' 25 6
def mwDec (w : MicroWord) : BitVec 6 := w.extractLsb' 19 6
def mwExct (w : MicroWord) : Nat := (w.extractLsb' 13 6).toNat
def mwPair (w : MicroWord) : Nat := (w.extractLsb' 9 4).toNat
def mwBrk (w : MicroWord) : Bool := bit w 8

def memOp (w : MicroWord) : Nat := ((mwMem w).extractLsb' 13 3).toNat
def memMode (w : MicroWord) : Nat := ((mwMem w).extractLsb' 11 2).toNat
def memData (w : MicroWord) : Nat := ((mwMem w).extractLsb' 9 2).toNat
def memLock (w : MicroWord) : Nat := ((mwMem w).extractLsb' 7 2).toNat
def mulOp (w : MicroWord) : Nat := ((mwMul w).extractLsb' 5 3).toNat
def mulSrc (w : MicroWord) : Nat := ((mwMul w).extractLsb' 2 2).toNat
def poolOp (w : MicroWord) : Nat := ((mwPool w).extractLsb' 4 4).toNat
def poolFmt (w : MicroWord) : Nat := ((mwPool w).extractLsb' 2 2).toNat
def strmOp (w : MicroWord) : Nat := ((mwStrm w).extractLsb' 19 5).toNat
def strmEnd (w : MicroWord) : Bool := bit (mwStrm w) 16
def mprtOp (w : MicroWord) : Nat := ((mwMprt w).extractLsb' 9 3).toNat
def mprtWait (w : MicroWord) : Bool := bit (mwMprt w) 8
def segOp (w : MicroWord) : Nat := ((mwSeg w).extractLsb' 2 4).toNat
def segSel (w : MicroWord) : Nat := ((mwSeg w).extractLsb' 0 2).toNat
def evtOp (w : MicroWord) : Nat := ((mwEvt w).extractLsb' 5 3).toNat
def evtPort (w : MicroWord) : Nat := ((mwEvt w).extractLsb' 0 5).toNat
def cntOp (w : MicroWord) : Nat := ((mwCnt w).extractLsb' 4 2).toNat
def decOp (w : MicroWord) : Nat := ((mwDec w).extractLsb' 3 3).toNat
def decSel (w : MicroWord) : Nat := ((mwDec w).extractLsb' 0 3).toNat

/-! ### Reserved codes (R68, R73 and the sub-field tables) -/

/-- A reserved operand code. -/
def srcReserved (c : Nat) : Bool := c = 0x26 || c = 0x27 || decide (0x30 ≤ c)
/-- A reserved destination: a reserved operand or a read-only one. -/
def dstReserved (c : Nat) : Bool :=
  srcReserved c || (decide (1 ≤ c) && decide (c ≤ 3)) || (decide (0x1C ≤ c) && decide (c ≤ 0x23))

/-- A format that its pool operation does not take. -/
def poolReserved (op fmt : Nat) : Bool :=
  decide (0xE ≤ op) || fmt = 3 || ((op = 8 || op = 0xA || op = 0xD) && fmt ≠ 0)

/-- A port other than 0 where the EVT op uses none: op 3 uses all five bits, op 5 bits [2:0]. -/
def evtReserved (op port : Nat) : Bool :=
  op = 7 || (op = 5 && decide (8 ≤ port)) || (op ≠ 3 && op ≠ 5 && port ≠ 0)

/-- An EXCT code that is reserved. -/
def exctReserved (c : Nat) : Bool := (decide (0x0B ≤ c) && decide (c ≤ 0x0F)) || decide (0x1A ≤ c)

/-- The fields, by index, that hold a reserved code or a reserved sub-field bit. -/
def mwReserved (w : MicroWord) : List (Nat × Bool) :=
  [(4, (mwAluop w).toNat % 16 = 15), (5, srcReserved (mwAsrc w)), (6, srcReserved (mwBsrc w)), (7, dstReserved (mwDst w)),
   (8, decide (0x12 ≤ mwShf w)),
   (11, memOp w = 7 || memMode w = 3 || memData w = 3 || memLock w = 3 || (mwMem w).toNat % 128 ≠ 0),
   (12, mulOp w = 7 || mulSrc w = 3 || (mwMul w).toNat % 4 ≠ 0),
   (13, poolReserved (poolOp w) (poolFmt w)),
   (14, decide (0xE ≤ strmOp w) || decide (2 ≤ ((mwStrm w).extractLsb' 17 2).toNat) || decide (5 ≤ ((mwStrm w).extractLsb' 12 4).toNat)
      || decide (5 ≤ ((mwStrm w).extractLsb' 8 4).toNat) || (mwStrm w).toNat % 256 ≠ 0),
   (15, decide (6 ≤ mprtOp w) || (mwMprt w).toNat % 256 ≠ 0),
   (16, decide (0xD ≤ segOp w)), (17, evtReserved (evtOp w) (evtPort w)), (18, mwBud w = 15), (19, cntOp w = 3),
   (20, decide (5 ≤ decOp w) || decide (4 ≤ decSel w)), (21, exctReserved (mwExct w)), (22, decide (2 ≤ mwPair w))]

/-- The forbidden combinations (R95). -/
def mwForbidden (w : MicroWord) : Bool :=
  (memOp w ≠ 0 && strmOp w ≠ 0)
    || (mwNac w = 8 && cntOp w ≠ 0)
    || (mwNac w = 12 && (mwCsel w % 4 ≠ 0 || mwCpol w || (mwTgt w).toNat % 16 ≠ 0))
    || (decide (8 ≤ mwShf w) && decide (mwShf w ≤ 12) && (mwAluop w).toNat % 16 ≠ 0)
    || (decide (5 ≤ mulOp w) && mulSrc w = 0)
    || (decOp w = 2 && mwDst w = 0x13)
    || (decSel w ≠ 0 && mwNac w ≠ 7)

/-- The microfault of a word by itself: the lowest cause, and the field index of cause 0x03 (R68, R95). DESIGN CHOICE (log 91): of
several fields with reserved codes the lowest index is recorded, and FIELD is 0 for every other cause. -/
def mwFault (w : MicroWord) : Option (Byte × Nat) :=
  if 13 ≤ mwNac w then some (0x01, 0)
  else if w.toNat % 256 ≠ 0 then some (0x02, 0)
  else match (mwReserved w).find? fun e => e.2 with
    | some (i, _) => some (0x03, i)
    | none => if mwForbidden w then some (0x09, 0) else none

/-- A word at address 4,095 whose next address or pushed address always comes from the incrementer: NEXT, CALL and CALLIF (R87).
DESIGN CHOICE (log 92): JIF, JIFN, LOOP and HOLDIF, which reach it only sometimes, pass row 6 of R104 there. -/
def incrementsAlways (w : MicroWord) : Bool := mwNac w = 0 || mwNac w = 4 || mwNac w = 5

end Sys2Proof.Machine
end

