-- ==== Sys2Proof/Machine/Micro.lean ====
section
/-!
DEFINITION. The microcycle (R63 to R95): conditions, operands, the ALU and shifter, the units a word drives, the next address and
dispatch, holds and microfaults; scratch data that returns (R64) and fabric requests of microcode (R351).
-/

namespace Sys2Proof.Machine

open Sys2Proof

def State.modMic (s : State) (q : SeqId) (f : Micro → Micro) : State := s.modSeq q fun x => { x with mic := f x.mic }
def State.modCond (s : State) (q : SeqId) (f : Conds → Conds) : State := s.modSeq q fun x => { x with cond := f x.cond }

/-! ### The head instruction (R72, R79) -/

/-- The bits of the decode fields; without a valid head word they are free. -/
def Head.ir : Head → Word
  | .word w => w
  | _ => Config.emptyHead
def Head.faulted : Head → Bool
  | .fault _ _ => true
  | _ => false

/-- An empty queue takes the word at PC, or the fault of its fetch; a fetch from a bank that is not awake wakes it. -/
def State.fetchHead (s : State) (q : SeqId) : State :=
  match (s.seq q).mic.head with
  | .empty =>
    match s.fetchAt q with
    | .ok s a => s.modMic q fun m => { m with head := .word (BitVec.ofNat 32 (s.mem.readLE a 4)) }
    | .exn s e => s.modMic q fun m => { m with head := .fault e.vec e.cause }
    | .wait s => s
  | _ => s

/-- The queue takes a further word behind its head, where the fetch passes its check and is answered at once (R134). -/
def State.fetchNext (s : State) (q : SeqId) : State :=
  let r := s.regs q
  let off := r.pc + 4 * BitVec.ofNat 16 (1 + (s.seq q).mic.ahead.length)
  match (s.seq q).mic.head with
  | .word _ =>
    match s.shadowRead q r 0 off.toNat 4 .exec with
    | some (s, bs) => s.modMic q fun m => { m with ahead := m.ahead ++ [BitVec.ofNat 32 (ofLeBytes bs)] }
    | none => s
  | _ => s

/-- The queue in one microcycle: its head, and what the fetch takes ahead of it (log 98). -/
def State.fetchCycle (s : State) (q : SeqId) : State :=
  let s := s.fetchHead q
  (if Config.fetchAhead s.freeCtr then s.fetchNext q else s).fresh

/-- While the head touches a pending item the queue presents it as absent (R213). -/
def Seq.headAbsent (x : Seq) : Bool :=
  match x.mic.head with
  | .word w => (wordTouch x.regs w).meets x.pool
  | _ => false

/-- A dispatch of select 0 holds: the queue is empty, or presents its head as absent (R65, R213). -/
def Seq.headAway (x : Seq) : Bool := x.mic.head == .empty || x.headAbsent

/-! ### Conditions (R88) -/

/-- A media response word's outcome, the oldest waiting. -/
def Micro.rspCode (m : Micro) : Option Nat := m.rsp.head?.map fun w => (w.extractLsb' 10 3).toNat

/-- A fabric read whose data MEMD waits for. -/
def Micro.fabRead (m : Micro) : Bool := match m.fab with | some f => f.data.isNone | none => false

/-- Condition n. POOLSLOT depends on the cycle, which the model does not count: a free value (log 3). -/
def State.cond (s : State) (q : SeqId) (n : Nat) : Bool :=
  let x := s.seq q
  let g := s.gal (galOf q)
  let m := x.mic
  let st := x.regs.st
  if 80 ≤ n then (if n < 96 then bit m.ures (n - 80) else bit m.head.ir (n - 96)) else
  match n with
  | 0 => true
  | 1 => bit st 0 | 2 => bit st 1 | 3 => bit st 2 | 4 => bit st 3 | 5 => bit st 4 | 6 => bit st 5 | 7 => bit st stLKB
  | 8 => m.uz | 9 => m.uc | 10 => m.un | 11 => m.uv | 12 => m.up
  | 13 => m.cnt == 0 | 14 => m.stack.isEmpty | 15 => m.stack.length == 8
  | 16 => bit st stPRIV | 17 => bit st stCT | 18 => bit st stRES | 19 => bit st stFPP
  | 20 => x.irqNow | 21 => x.bud.budx | 22 => x.dhalt
  | 23 => x.irqNow || x.bud.budx || x.dhalt || x.ticks || x.fptd || m.head.faulted
  | 24 => x.ticks | 25 => x.lock.isSome | 26 => x.fptd | 27 => x.prefetch.isSome
  | 28 => !x.headAway | 29 => m.head.faulted | 30 => m.memrdy | 31 => !m.reads.isEmpty || m.fabRead
  | 32 => x.cond.segok | 33 => x.cond.segna | 34 => x.cond.lockok | 35 => x.cond.lockbusy
  | 36 => x.cond.mulland | 37 => !x.prods.isEmpty | 38 => x.pool.isSome | 39 => x.poolrdy
  | 40 => x.cond.poolx | 41 => x.cond.divz | 42 => Config.freeChoice s.freeCtr % 2 == 1 | 43 => x.cond.poolgnt
  | 44 => x.cond.step
  | 45 => match m.long with
    | none => true
    | some l => l.remaining (x.regs.withProg l.f m.prog) == 0
  | 46 => x.cond.slim | 47 => x.cond.smatch | 48 => x.cond.sstall | 49 => x.cond.radecl | 50 => x.cond.rahit
  | 51 => g.lines.toList.all fun l => l.busy
  | 52 => decide (g.md.tags.length < 1024) | 53 => g.md.rq != 0 | 54 => g.md.wd != 0
  | 55 => !m.rsp.isEmpty
  | 56 => match m.rspCode with | some c => c != 0 | none => false
  | 57 => m.rspCode == some 1 | 58 => m.rspCode == some 2
  | 59 => s.dg.txn.isNone
  | 60 => match s.dg.holder with | some i => s.sessionOf x.regs.ctxid != some i | none => false
  | 61 => x.cond.dgeq | 62 => x.cond.dggl
  | 63 => g.md.waiting.any fun r => r.seq = q && r.purpose.isWrite && s.pow.holdEn && !s.holdFits (s.writeResv r)
  | 64 => x.evpend | 65 => x.cond.evovr | 66 => g.tmrm (idxOf q) | 67 => x.cond.stimack
  | 68 => decide (x.exc.wdcount.toNat ≤ 1)
  | 69 => x.cond.retry | 70 => x.cond.fenced | 71 => x.cond.faberr | 72 => g.gstate == .squeezing | 73 => x.cond.slotret
  | 74 => bit x.cs.csver 62 | 75 => x.dbg.ubrken | 76 => g.xtin | 77 => s.pd.active
  | 78 => match m.rsp.head? with | some w => bit w 13 | none => false
  | 79 => x.regs.ctxid != 0xFFFF && s.ctxFlag x.regs.ctxid 0
  | _ => false

/-- The condition a word selects. -/
def State.condOf (s : State) (q : SeqId) (w : MicroWord) : Bool := s.cond q (mwCsel w) != mwCpol w

/-! ### Operands (R73) -/

/-- Halves of a word. -/
def halfOf (x : Word) (hi : Bool) : Half := if hi then x.extractLsb' 16 16 else x.setWidth 16
def putHalf (x : Word) (hi : Bool) (v : Half) : Word := putBits x (if hi then 16 else 0) v

/-- Views of a register number as codes 4 to 7 give them: B, H, W low, W high. -/
def Regs.viewHalf (r : Regs) (k : Nat) (n : BitVec 5) : Half :=
  match k with
  | 0 => (r.B n).setWidth 16
  | 1 => r.H n
  | 2 => halfOf (r.W n) false
  | _ => halfOf (r.W n) true

/-- SP as an operand: LSP while frame pushes use the ledge (EXCT 0x13). -/
def Seq.spOperand (x : Seq) : Half := if x.mic.ledgeSp then x.regs.lsp.setWidth 16 else x.regs.selSp

/-- The value of an operand code. -/
def Seq.operand (x : Seq) (q : SeqId) (w : MicroWord) (c : Nat) : Half :=
  let r := x.regs
  let m := x.mic
  let ir := m.head.ir
  let sr : Word := r.sr q ((mwLit w).toNat % 32)
  if 4 ≤ c ∧ c ≤ 0x0F then
    r.viewHalf (c % 4) (if c < 8 then irRd ir else if c < 12 then irRs ir else irRx ir)
  else if 0x28 ≤ c ∧ c ≤ 0x2F then m.t[(c - 0x28) % 8]'(Nat.mod_lt _ (by omega))
  else match c with
    | 0x01 => mwLit w
    | 0x02 => ir.setWidth 16
    | 0x03 => (ir.setWidth 8 : Byte).signExtend 16
    | 0x10 => r.A (irRd ir)
    | 0x11 => r.A (irRs ir)
    | 0x12 => r.A (irRx ir)
    | 0x13 => r.pc
    | 0x14 => x.spOperand
    | 0x15 => r.st
    | 0x16 => halfOf sr false
    | 0x17 => halfOf sr true
    | 0x18 => r.mr.extractLsb' 0 16
    | 0x19 => r.mr.extractLsb' 16 16
    | 0x1A => r.mr.extractLsb' 32 16
    | 0x1B => r.mr.extractLsb' 48 16
    | 0x1C => halfOf m.memd false
    | 0x1D => halfOf m.memd true
    | 0x1E => halfOf x.poolr false
    | 0x1F => halfOf x.poolr true
    | 0x20 => m.cnt.setWidth 16
    | 0x21 => m.rsp.headD 0
    | 0x22 => m.evrd.setWidth 16
    | 0x23 => if x.cond.segok then m.segOff else m.segCause.setWidth 16
    | 0x24 => halfOf m.crcacc false
    | 0x25 => halfOf m.crcacc true
    | _ => 0

/-- ST as a destination: every bit but SHORT and the reserved bit 15. -/
def stWhole (old new : Half) : Half := (old &&& 0xC000) ||| (new &&& 0x3FFF)

/-- A special register as a destination; number 0x00 is ST whole. -/
def Regs.putSr (r : Regs) (q : SeqId) (n : Nat) (hi : Bool) (v : Half) : Regs :=
  if n = 0 then (if hi then r else { r with st := stWhole r.st v }) else r.setSr n (putHalf (r.sr q n) hi v)

/-- The write of a register view. -/
def Regs.putView (r : Regs) (k : Nat) (n : BitVec 5) (v : Half) : Regs :=
  match k with
  | 0 => r.setB n (v.setWidth 8)
  | 1 => r.setH n v
  | 2 => r.setW n (putHalf (r.W n) false v)
  | _ => r.setW n (putHalf (r.W n) true v)

/-- The write of a result at a destination code. -/
def Seq.putDst (x : Seq) (q : SeqId) (w : MicroWord) (c : Nat) (v : Half) : Seq :=
  let r := x.regs
  let ir := x.mic.head.ir
  let regs (r : Regs) : Seq := { x with regs := r }
  let mic (m : Micro) : Seq := { x with mic := m }
  if 4 ≤ c ∧ c ≤ 0x0F then
    regs (r.putView (c % 4) (if c < 8 then irRd ir else if c < 12 then irRs ir else irRx ir) v)
  else if 0x28 ≤ c ∧ c ≤ 0x2F then mic { x.mic with t := x.mic.t.set ((c - 0x28) % 8) v (Nat.mod_lt _ (by omega)) }
  else match c with
    | 0x10 => regs (r.setA (irRd ir) v)
    | 0x11 => regs (r.setA (irRs ir) v)
    | 0x12 => regs (r.setA (irRx ir) v)
    | 0x13 => regs { r with pc := v }
    | 0x14 => if x.mic.ledgeSp then regs { r with lsp := lspWrite (v.setWidth 8) } else regs (r.setSelSp v)
    | 0x15 => regs { r with st := stWhole r.st v }
    | 0x16 => regs (r.putSr q ((mwLit w).toNat % 32) false v)
    | 0x17 => regs (r.putSr q ((mwLit w).toNat % 32) true v)
    | 0x18 => regs { r with mr := putBits r.mr 0 v }
    | 0x19 => regs { r with mr := putBits r.mr 16 v }
    | 0x1A => regs { r with mr := putBits r.mr 32 v }
    | 0x1B => regs { r with mr := putBits r.mr 48 v }
    | 0x24 => mic { x.mic with crcacc := putHalf x.mic.crcacc false v }
    | 0x25 => mic { x.mic with crcacc := putHalf x.mic.crcacc true v }
    | _ => x

/-! ### ALU and shifter (R70, R71, R75) -/

/-- Swaps the nibbles of a byte. -/
def swapNib (b : Byte) : Byte := b.rotateLeft 4

/-- The ALU at width k: value, carry or borrow, overflow. -/
def aluOut (k : Nat) (op : Nat) (a b : BitVec k) (cin : Bool) (swp : BitVec k) : BitVec k × Bool × Bool :=
  let fl (x : Alu k) : BitVec k × Bool × Bool := (x.val, x.fl.c.getD false, x.fl.v.getD false)
  match op with
  | 0x0 => (a, false, false)
  | 0x1 => (b, false, false)
  | 0x2 | 0x3 => fl (aluAdd a b cin)
  | 0x4 | 0x5 => fl (aluSub a b cin)
  | 0x6 => (a &&& b, false, false)
  | 0x7 => (a ||| b, false, false)
  | 0x8 => (a ^^^ b, false, false)
  | 0x9 => (a &&& ~~~b, false, false)
  | 0xA => (~~~a, false, false)
  | 0xB => fl (aluSub 0 a false)
  | 0xC => fl (aluAdd a 1 false)
  | 0xD => fl (aluSub a 1 false)
  | 0xE => (swp, false, false)
  | _ => (0, false, false)

/-- The shifter at width k: value, and the bit moved out. The CRC steps are made apart. -/
def shfOut (k : Nat) (code : Nat) (x : BitVec k) (n : Nat) (c : Bool) (nib : BitVec k) : BitVec k × Option Bool :=
  match code with
  | 0x01 => shiftBy .shl x 1
  | 0x02 => shiftBy .shr x 1
  | 0x03 => shiftBy .asr x 1
  | 0x04 => shiftBy .rol x 1
  | 0x05 => shiftBy .ror x 1
  | 0x06 => ((x <<< 1) ||| ofB k c, some x.msb)
  | 0x07 => ((x >>> 1) ||| (ofB k c <<< (k - 1)), some (bit x 0))
  | 0x08 => shiftBy .shl x n
  | 0x09 => shiftBy .shr x n
  | 0x0A => shiftBy .asr x n
  | 0x0B => shiftBy .rol x n
  | 0x0C => shiftBy .ror x n
  | 0x0D => (bitRev x, none)
  | 0x0E => (nib, none)
  | 0x0F => (ofB k (parity x), none)
  | _ => (x, none)

/-- A word's result with the micro flags it sets. -/
structure UOut where
  val : Half
  z : Bool
  c : Bool
  n : Bool
  v : Bool
  p : Bool
  deriving DecidableEq, Repr

/-- The final value at width k with its flags. -/
def uOut (k : Nat) (chained uz : Bool) (x : BitVec k) (c v : Bool) : UOut :=
  { val := x.setWidth 16, z := (x == 0) && (!chained || uz), c := c, n := x.msb, v := v, p := parity x }

/-- The ALU and the shifter, byte or half (R70, R75). -/
def Seq.alu (x : Seq) (w : MicroWord) (a b : Half) : UOut :=
  let mode := (mwAluop w).toNat / 16
  let op := (mwAluop w).toNat % 16
  let chained := decide (2 ≤ mode)
  let c := x.regs.c
  let cin := if chained then x.mic.uc else (op = 3 || op = 5) && c
  let n := b.toNat % 16
  if mode = 0 ∨ mode = 3 then
    let a8 : Byte := a.setWidth 8
    let (y, cy, v) := aluOut 8 op a8 (b.setWidth 8) cin (swapNib a8)
    let (z, out) := shfOut 8 (mwShf w) y n c (swapNib y)
    uOut 8 chained x.mic.uz z (out.getD cy) v
  else
    let (y, cy, v) := aluOut 16 op a b cin (a.rotateLeft 8)
    let (z, out) := shfOut 16 (mwShf w) y n c (swapNib (y.extractLsb' 8 8) ++ swapNib (y.setWidth 8))
    uOut 16 chained x.mic.uz z (out.getD cy) v

/-- SHF 0x10 and 0x11: CRCACC steps over B's low byte, or both; its low half is the result. -/
def Seq.crcStep (x : Seq) (w : MicroWord) (b : Half) : Option Word :=
  match mwShf w with
  | 0x10 => some (Machine.crcStep x.regs.crc x.mic.crcacc (b.setWidth 8))
  | 0x11 => some (crcBytes x.regs.crc x.mic.crcacc [b.setWidth 8, b.extractLsb' 8 8])
  | _ => none

/-- The word's result. The CRC steps give the 16 bits of CRCACC[15:0] in a byte mode as well, with the flags of its low byte: R75
gives the one and R71 the width of the other (DESIGN CHOICE, log 101). -/
def Seq.result (x : Seq) (w : MicroWord) (a b : Half) : UOut :=
  let y := x.alu w a b
  match x.crcStep w b with
  | none => y
  | some acc =>
    let v : Half := acc.setWidth 16
    let mode := (mwAluop w).toNat / 16
    if mode = 0 ∨ mode = 3 then { uOut 8 (decide (2 ≤ mode)) x.mic.uz (v.setWidth 8) y.c y.v with val := v }
    else uOut 16 (decide (2 ≤ mode)) x.mic.uz v y.c y.v

/-- CRCACC, the micro flags and UR0 to UR15 after a word. -/
def Micro.took (m : Micro) (w : MicroWord) (y : UOut) (acc : Option Word) : Micro :=
  let m : Micro := { m with crcacc := acc.getD m.crcacc, ures := y.val }
  if mwAluop w = 0 ∧ mwAsrc w = 0 then m
  else { m with uz := y.z, uc := y.c, un := y.n, uv := y.v, up := y.p }

/-- FLG (R76): micro flags into ST, the selected condition into T. -/
def Seq.putFlg (x : Seq) (w : MicroWord) (c : Bool) : Seq :=
  let m := x.mic
  let put (i : Nat) (v : Bool) (st : Half) : Half := if bit (mwFlg w) i then putBit st i v else st
  { x with regs := { x.regs with st := put 5 c (put 4 m.up (put 3 m.uv (put 2 m.un (put 1 m.uc (put 0 m.uz x.regs.st))))) } }

/-! ### Microfaults (R94) -/

/-- The sequencer stops: MCFAULT, a MICROFAULT record, its items end, its lock breaks. -/
def State.microfault (s : State) (q : SeqId) (cause : Byte) (a : BitVec 12) (field : Nat) : State :=
  let ctx := (s.regs q).ctxid
  let s := s.modSeq q fun x => { x with
    cs := { x.cs with mf := true, cause := cause, uaddr := a, field := BitVec.ofNat 5 field }, prods := [], pool := none }
  let s := s.record 2 (recSrc 0 (galOf q).val q.val) .important (leBytes 4 (s.seq q).cs.mcfault.toNat ++ leBytes 2 ctx.toNat)
  let s := (s.abandon q).breakLock q
  let s := s.dropRunning q stFAILED 0x02
  let s := s.dropPrefetch q 0x15
  s.modSeq q fun x => { x with run := .mfault, wait := .none }

/-! ### The segment unit (R78) -/

/-- Size and kind of a SEG op. -/
def segKind (op : Nat) : Nat × Kind :=
  match op with
  | 0x1 => (1, .read)
  | 0x2 => (1, .write)
  | 0x3 => (4, .exec)
  | 0x4 => (1, .sread)
  | 0x5 => (1, .swrite)
  | 0x6 => (4, .hold)
  | 0x7 => (16, .descR)
  | 0x8 => (16, .descW)
  | 0x9 => (2, .read)
  | 0xA => (4, .read)
  | 0xB => (2, .write)
  | _ => (4, .write)

/-- The segment a word names. -/
def Seq.segNum (x : Seq) (w : MicroWord) : BitVec 3 :=
  match segSel w with
  | 0 => irSegn x.mic.head.ir
  | 1 => 0
  | 2 => 7
  | _ => x.mic.t[0].setWidth 3

/-- The check of a word's ALU result as an offset. -/
def Seq.segCheck (x : Seq) (w : MicroWord) (off : Half) : Except Exn Nat :=
  x.regs.check (x.segNum w) off.toNat (segKind (segOp w)).1 (segKind (segOp w)).2

/-- The latches of a check. -/
def Seq.segUnit (x : Seq) (w : MicroWord) (off : Half) : Seq :=
  if segOp w = 0 then x else
  match x.segCheck w off with
  | .ok a => { x with
      cond := { x.cond with segok := true, segna := false }
      mic := { x.mic with segRes := BitVec.ofNat 52 a, segOff := off, segSeg := x.segNum w, segCause := 0 } }
  | .error e => { x with
      cond := { x.cond with segok := false, segna := e.vec = 2 }
      mic := { x.mic with segOff := e.eaddr, segSeg := e.seg, segCause := e.cause } }

/-! ### The scratch port (R77) -/

/-- Where a MEM op goes. -/
inductive MemAt where
  | none
  | ledge (off : Nat)
  | scratch (a : Nat)
  | fabric (a : Nat)
  | galReg (off : Nat)
  | bad
  deriving DecidableEq, Repr

/-- The target of an engine address from the segment unit. -/
def addrAt (q : SeqId) (a : Nat) : MemAt :=
  match placeOf a with
  | .scratch g _ => if g = galOf q then .scratch a else .fabric a
  | .ctx _ => .fabric a
  | .nowhere => .bad

/-- T0:T1 as a gallery scratch address; the 4 KiB above the scratch are the gallery's own registers (R257). An access of n bytes
that begins in the scratch and ends beyond it reaches no target of the table (DESIGN CHOICE, log 101). -/
def runtimeAt (q : SeqId) (a n : Nat) : MemAt :=
  if a + n ≤ 0x100000 then .scratch (scratchAddr (galOf q) a)
  else if 0x100000 ≤ a ∧ a + n ≤ 0x101000 then .galReg (a - 0x100000)
  else .bad

def memSize (w : MicroWord) : Nat := match (memOp w - 1) % 3 with | 0 => 1 | 1 => 2 | _ => 4

/-- The target of a word, with its own segment check already latched; an access whose check failed is suppressed. A word of
address mode 0b00 whose SEG op is none uses the address and SEGOK of the last check: the manual says no more than that the
address comes from the segment unit (DESIGN CHOICE, log 101). -/
def Seq.memAt (x : Seq) (q : SeqId) (w : MicroWord) : MemAt :=
  if memOp w = 0 then .none else
  match memMode w with
  | 0 => if x.cond.segok then addrAt q x.mic.segRes.toNat else .none
  | 1 => .ledge (x.regs.lsp.toNat + (mwLit w).toNat % 64)
  | _ => runtimeAt q (x.mic.t[0].toNat * 0x10000 + x.mic.t[1].toNat) (memSize w)

def memWrites (w : MicroWord) : Bool := decide (4 ≤ memOp w)

/-- A read's data on its way to MEMD; MEMRDY falls. -/
def State.pushRead (s : State) (q : SeqId) (v : Nat) (poisoned : Bool) : State :=
  s.modMic q fun m => { m with
    memrdy := false, reads := m.reads ++ [{ value := BitVec.ofNat 32 v, poisoned := poisoned, seg := m.segSeg, off := m.segOff }] }

/-- The bytes a write stores: the operand; the upper half of a word, which no operand gives, is free (log 3). -/
def State.memBytes (s : State) (w : MicroWord) (v : Half) : List Byte :=
  let n := memSize w
  if n < 4 then leBytes n v.toNat else leBytes 2 v.toNat ++ leBytes 2 (Config.freeWord s.freeCtr).toNat

/-- A latched BUSERR with the segment unit's offset. -/
def Seq.latch (x : Seq) (vec : Nat) (ecause eaddr : Half) : Seq :=
  { x with regs := { x.regs with ecause := ecause, eaddr := eaddr }, mic := { x.mic with vec := some vec } }

def State.busLatch (s : State) (q : SeqId) (cause : Byte) : State :=
  s.modSeq q fun x => x.latch 3 (x.mic.segSeg.setWidth 16 <<< 8 ||| cause.setWidth 16) x.mic.segOff

/-- HOLD with a word read and FREE with a word write (R168). -/
def State.lockUnit (s : State) (q : SeqId) (w : MicroWord) (a : Nat) : State × Bool :=
  let x := s.seq q
  if memLock w = 1 ∧ memOp w = 3 then
    if x.lock.isSome then (s.modCond q fun c => { c with lockok := false, lockbusy := false }, false)
    else if s.lockedByOther q a then (s.modCond q fun c => { c with lockok := false, lockbusy := true }, false)
    else (s.modSeq q fun x => { x with lock := some a, cond := { x.cond with lockok := true, lockbusy := false } }, true)
  else if memLock w = 2 ∧ memOp w = 6 then
    if x.lock = some a then (s.modSeq q fun x => { x with lock := none, dbg := { x.dbg with defer := false } }, true) else (s, false)
  else (s, true)

/-- The access itself; an offset of the register block that no register has reads 0 and ignores writes (R33). -/
def State.memAccess (s : State) (q : SeqId) (w : MicroWord) (v : Half) : State :=
  let x := s.seq q
  let n := memSize w
  let out := s.memBytes w v
  match x.memAt q w with
  | .none => s
  | .bad => s.busLatch q 0x21
  | .ledge o =>
    if memWrites w then s.modSeq q fun x => x.ledgeWrite o out
    else s.pushRead q (ofLeBytes ((List.range n).map fun i => x.ledgeAt (o + i))) false
  | .galReg o =>
    match galReg (o / 4 * 4) with
    | none => if memWrites w then s else s.pushRead q 0 false
    | some r =>
      if memWrites w then s.galWrite (galOf q) r (BitVec.ofNat 32 (ofLeBytes out)) (.seq (idxOf q))
      else (s.galReadFx (galOf q) r).pushRead q (s.galRead (galOf q) r).toNat false
  | .fabric a =>
    let (s, go) := s.lockUnit q w a
    if go then s.modMic q fun m => { m with
      memrdy := m.memrdy && memWrites w
      fab := some { addr := a, size := n, data := if memWrites w then some out else none, seg := m.segSeg, off := m.segOff } }
    else s
  | .scratch a =>
    let (s, go) := s.lockUnit q w a
    if !go then s
    else if memWrites w then
      match s.memWrite q a out with
      | .ok s _ => s
      | .bus s c => s.busLatch q c
      | .wait s => s
      | .retry => s
    else match s.memRead q a n with
      | .ok s bs => s.pushRead q (ofLeBytes bs) false
      | .bus s c => if c = 0x20 then s.pushRead q (s.mem.readLE a n) true else s.busLatch q c
      | .wait s => s
      | .retry => s

/-! ### Multiplier and pool -/

/-- A value at a width, signed or not. -/
def intOf (k : Nat) (signed : Bool) (x : Nat) : Int :=
  let y := x % 2 ^ k
  if signed && y.testBit (k - 1) then (y : Int) - 2 ^ k else y

/-- A MUL op's product. -/
def Seq.product (x : Seq) (w : MicroWord) (a b : Half) : Product :=
  let op := mulOp w
  let signed := op % 2 = 0
  let v : View := if op ≤ 2 then .b else if op ≤ 4 then .h else .w
  let ir := x.mic.head.ir
  let k := 8 * v.size
  let p : Int := match mulSrc w with
    | 0 => intOf k signed a.toNat * intOf k signed b.toNat
    | 1 => x.regs.viewInt v signed (irRd ir) * x.regs.viewInt v signed (irRs ir)
    | _ => x.regs.viewInt v signed (irRs ir) * x.regs.viewInt v signed (irRx ir)
  { value := BitVec.ofInt 64 p, acc := bit (mwMul w) 4 }

def State.mulUnit (s : State) (q : SeqId) (w : MicroWord) (a b : Half) : State :=
  if mulOp w = 0 then s else s.modSeq q fun x => { x with prods := x.prods ++ [x.product w a b] }

/-- A POOL op formed from the head's registers. -/
def State.poolFormed (s : State) (q : SeqId) (w : MicroWord) : Except Byte PoolOp :=
  let r := s.regs q
  let ir := (s.seq q).mic.head.ir
  let var := bit (mwPool w) 1
  let ops := bit (mwPool w) 0
  let rd := irRd ir
  let a := if ops then irRd ir else irRs ir
  let b := if ops then irRs ir else irRx ir
  let fmt : BitVec 4 := BitVec.ofNat 4 (poolFmt w)
  let withVar : BitVec 4 := if var then fmt ||| (irMinor ir &&& 0xC) else fmt
  let div : BitVec 4 := if var then fmt ||| 4 else fmt
  match poolOp w with
  | 0x1 => arithOp (fun f c a b _ => f.add c a b) fmt rd a b r
  | 0x2 => arithOp (fun f c a b _ => f.add c a b.neg) fmt rd a b r
  | 0x3 => arithOp (fun f c a b _ => f.mul c a b) fmt rd a b r
  | 0x4 => arithOp (fun f c a b _ => f.div c a b) fmt rd a b r
  | 0x5 => arithOp (fun f c a _ _ => f.sqrt c a) fmt rd a b r
  | 0x6 => arithOp (fun f c a b d => f.fma c a b d) fmt rd (irRs ir) (irRx ir) r
  | 0x7 => fcmpOp s.freeCtr withVar a b r
  | 0x8 => fcvtOp (irMinor ir) rd (irRs ir) (irRx ir) r
  | 0x9 => fminmaxOp withVar rd a b r
  | 0xA => fclassOp (irMinor ir) rd (irRs ir) r
  | 0xB => divOp false div rd a b r
  | _ => divOp true div rd a b r

/-- The pool issue; FBAR issues nothing. POOLGNT tells whether it was granted: never while POOLBSY, always in CT mode otherwise,
and outside it as the other sequencers' requests for the two ports leave it (R211, R218, log 99). -/
def State.poolUnit (s : State) (q : SeqId) (w : MicroWord) : State :=
  if poolOp w = 0 ∨ poolOp w = 0xD then s else
  match s.poolFormed q w with
  | .error _ => s.modCond q fun c => { c with poolgnt := false }
  | .ok p =>
    if (s.seq q).pool.isSome || (!bit (s.regs q).st stCT && Config.poolRefused s.freeCtr) then
      s.modCond q fun c => { c with poolgnt := false }
    else (s.poolGrant q p).modCond q fun c => { c with poolgnt := true }

/-! ### The stream datapath (R180) -/

def strmKind (op : Nat) (v : Bool) : LongKind :=
  match op with
  | 1 => .copy
  | 2 => .scan
  | 3 => .crcs
  | 4 => if v then .matchF else .matchS
  | 5 => .hashs
  | 6 => .filt
  | 7 => .fills
  | 8 => .cmps
  | _ => .dgst

/-- A fault of a step is latched as EXCT would latch it. -/
def State.latchExn (s : State) (q : SeqId) (e : Exn) : State :=
  s.modSeq q fun x => ({ x with cond := { x.cond with step := false, slim := e.cause = 0x30 } } : Seq).latch e.vec
    (e.seg.setWidth 16 <<< 8 ||| e.cause.setWidth 16) e.eaddr

/-- One step on the datapath's progress: the table where it is not latched yet, then the step; none where nothing is left. -/
def State.nextStep (s : State) (q : SeqId) (l : LongOp) : Option StepRes :=
  let s := s.modRegs q fun r => r.withProg l.f (s.seq q).mic.prog
  match if l.loaded then Prep.ok s l else prepare q l s with
  | .err s e => some (.err s e)
  | .retry => some .retry
  | .stall s l => some (.stall s l)
  | .ok s l => if l.remaining (s.regs q) = 0 then none else some (longStep q l s)

/-- The next step would cross a limit (SLIM, R88). -/
def State.nextCrosses (s : State) (q : SeqId) : Bool :=
  match (s.seq q).mic.long with
  | none => false
  | some l => match s.nextStep q l with
    | some (.err _ e) => e.cause == 0x30
    | _ => false

/-- A step's end in the datapath: the registers stand; the progress advances with STEPEND. SMATCH tells of a match, a hit or a
selected record. -/
def State.stepTook (s : State) (q : SeqId) (r0 : Regs) (l : LongOp) (w : MicroWord) (last : Bool) : State :=
  let picked := l.kind == .filt && ((s.regs q).wp l.f).extractLsb' 16 16 != ((r0.withProg l.f (s.seq q).mic.prog).wp l.f).extractLsb' 16 16
  let s := s.consumed q l
  let s := s.modSeq q fun x => { x with
    regs := r0
    mic := { x.mic with long := some l, prog := if strmEnd w then x.regs.progOf l.f else x.mic.prog }
    cond := { x.cond with step := true, sstall := false, smatch := (last && l.differ.isSome) || picked } }
  let slim := s.nextCrosses q
  s.modCond q fun c => { c with slim := slim }

/-- One step on the datapath's progress. -/
def State.strmStep (s : State) (q : SeqId) (l : LongOp) (w : MicroWord) : State :=
  let r0 := s.regs q
  let again : State := s.modCond q fun c => { c with retry := true, step := false }
  match s.nextStep q l with
  | none => s.stepTook q r0 l w false
  | some (.more s l) => s.stepTook q r0 l w false
  | some (.last s l) => s.stepTook q r0 l w true
  | some (.stall s l) => s.modSeq q fun x => { x with
      regs := r0, mic := { x.mic with long := some l }, cond := { x.cond with sstall := true, step := false } }
  | some (.err s e) => (s.modRegs q fun _ => r0).latchExn q e
  | some .retry => again

/-- STRM op 0x0A: binds the head's FETCH to a staging line of this sequencer (R206). -/
def State.strmBind (s : State) (q : SeqId) : State :=
  let f := irForm (s.seq q).mic.head.ir
  let r := s.regs q
  let n := r.wx f
  let m := min n 4096
  match s.streamCheck q f.ss .window (r.ws f) n .sread, s.streamCheck q f.sd .own (r.wd f) n .swrite with
  | .ok e, .ok d =>
    match s.fetchLine q e m with
    | none => s.modCond q fun c => { c with rahit := false, radecl := false }
    | some i =>
      let xid := s.work.nextXid
      let s := (s.bindLine q i xid d).newXfer q xid n m false (decide (m < n))
      if n ≤ m then s.resolveBound (galOf q) i else s
  | _, _ => s

/-- The kind of long instruction that the head's major names (R172). -/
def headKind (ir : Word) : LongKind :=
  match (irMajor ir).toNat with
  | 0x44 => .scan
  | 0x45 => .crcs
  | 0x46 => if bit ir 23 then .matchF else .matchS
  | 0x47 => .hashs
  | 0x48 => .filt
  | 0x49 => .dgst
  | 0x4A => .fills
  | 0x4B => .cmps
  | _ => .copy

/-- STRM op 0x0C: progress from the registers. -/
def State.strmLoad (s : State) (q : SeqId) : State :=
  let ir := (s.seq q).mic.head.ir
  let f := irForm ir
  let l : LongOp := { kind := headKind ir, v := bit ir 23, f := f, base := (s.regs q).wd f }
  let s := s.modMic q fun m => { m with long := some l, prog := (s.regs q).progOf f, rsp := [] }
  let slim := s.nextCrosses q
  s.modCond q fun c => { c with slim := slim }

/-- STRM op 0x0D: progress to the registers. -/
def State.strmStore (s : State) (q : SeqId) : State :=
  match (s.seq q).mic.long with
  | none => s
  | some l => (s.modRegs q fun r => r.withProg l.f (s.seq q).mic.prog).modMic q fun m => { m with long := none }

/-- The datapath op of a word; op 0x0B pushes what the steps have already handed to the write in progress. -/
def State.strmUnit (s : State) (q : SeqId) (w : MicroWord) : State :=
  let op := strmOp w
  if 1 ≤ op ∧ op ≤ 9 then
    match (s.seq q).mic.long with
    | none => s
    | some l => s.strmStep q { l with kind := strmKind op l.v } w
  else match op with
    | 0x0A => s.strmBind q
    | 0x0C => s.strmLoad q
    | 0x0D => s.strmStore q
    | _ => s

/-! ### The media-port channel -/

/-- The request of the head's FETCH: its whole range, or what follows the line that an earlier word bound. -/
def State.mprtFetch (s : State) (q : SeqId) : State :=
  let f := irForm (s.seq q).mic.head.ir
  let r := s.regs q
  let n := r.wx f
  match s.streamCheck q f.ss .window (r.ws f) n .sread, s.streamCheck q f.sd .own (r.wd f) n .swrite with
  | .ok e, .ok d =>
    let bound := s.work.xfers.find? fun x => x.ctx == r.ctxid && x.split && x.second.isNone && x.len = n && !x.isPut
    match bound with
    | some x => s.addReq (galOf q) (s.mkReq q (e + x.m) (n - x.m) (.fetch x.xid true (d + x.m)))
    | none =>
      let xid := s.work.nextXid
      (s.addReq (galOf q) (s.mkReq q e n (.fetch xid false d))).newXfer q xid n 4096 false false
  | .error e, _ => s.latchExn q e
  | _, .error e => s.latchExn q e

/-- The request of the head's PUT. -/
def State.mprtPut (s : State) (q : SeqId) : State :=
  let f := irForm (s.seq q).mic.head.ir
  let r := s.regs q
  let n := r.wx f
  match s.streamCheck q f.ss .own (r.ws f) n .sread, s.streamCheck q f.sd .window (r.wd f) n .swrite with
  | .ok a, .ok d =>
    let xid := s.work.nextXid
    (s.addReq (galOf q) (s.mkReq q d n (.put xid a))).newXfer q xid n 0 true false
  | .error e, _ => s.latchExn q e
  | _, .error e => s.latchExn q e

/-- The chunk request of the stream operation in the datapath (R182, R183). -/
def State.mprtChunk (s : State) (q : SeqId) (l : LongOp) (write : Bool) : State :=
  let r := (s.regs q).withProg l.f (s.seq q).mic.prog
  if write then
    match s.streamCheck q l.f.sd .window (r.wd l.f + l.ahead) 1 .swrite with
    | .error _ => s
    | .ok a =>
      let (s, l, _) := s.ensureWrites q l a 1 (a + (r.wx l.f - l.ahead)) 1
      s.modMic q fun m => { m with long := some l }
  else match s.streamCheck q l.f.ss .window (r.ws l.f) 1 .sread with
    | .error _ => s
    | .ok a => s.ensureChunk q 0 a (a + r.wx l.f)

/-- The MPRT op of a word. -/
def State.mprtUnit (s : State) (q : SeqId) (w : MicroWord) : State :=
  let x := s.seq q
  match mprtOp w with
  | 1 => match x.mic.long with
    | some l => s.mprtChunk q l false
    | none => s.mprtFetch q
  | 2 => match x.mic.long with
    | some l => s.mprtChunk q l true
    | none => s.mprtPut q
  | 3 => match s.shadowFetch q (s.regs q) (irForm x.mic.head.ir) with
    | .on s _ _ => s
    | .stop => s
  | 4 => s.modMic q fun m => { m with rsp := m.rsp.tail }
  | 5 => (s.raEnd q).releaseLines (galOf q) fun l => l.seq = q && !l.chunk && l.bound.isNone
  | _ => s

/-! ### Events, exceptions, counter -/

/-- The EVT op of a word. Op 0b101 places STAT as it stands before the acknowledgement (DEDUCED, log 102). -/
def State.evtUnit (s : State) (q : SeqId) (w : MicroWord) (a : Half) (result : Half) : State :=
  let ch : Byte := a.setWidth 8
  match evtOp w with
  | 1 => s.publish ch 1
  | 2 => s.modSeq q fun x => x.take ch
  | 3 => s.stim q (evtPort w) (result.setWidth 32)
  | 4 => s.modMic q fun m => { m with evrd := BitVec.ofNat 32 ((s.seq q).pendOf ch) }
  | 5 =>
    let t : Fin 8 := Fin.ofNat 8 (evtPort w)
    let stat := (s.gal (galOf q)).timers[t].stat
    (s.timerAck (galOf q) t).modMic q fun m => { m with evrd := stat }
  | _ => s

/-- EXCT 0x16: the highest pending interrupt above ML is acknowledged; its vector is the event read data. -/
def Seq.ackBest (x : Seq) : Seq :=
  match x.exc.best x.regs.ml with
  | none => x
  | some i => { x with exc := { x.exc with irqpend := putBit x.exc.irqpend i false }, mic := { x.mic with evrd := BitVec.ofNat 32 (16 + i) } }

/-- The EXCT action of a word, but for the third fault and the hold. -/
def Seq.exct (x : Seq) (w : MicroWord) (b result : Half) : Seq :=
  let st (f : Half → Half) : Seq := { x with regs := { x.regs with st := f x.regs.st } }
  let c := mwExct w
  if 1 ≤ c ∧ c ≤ 8 then x.latch c (mwLit w &&& 0xFF) result
  else match c with
    | 0x09 => x.latch (if x.mic.segCause = 0x10 ∨ x.mic.segCause = 0x11 then 2 else 4)
        (x.mic.segSeg.setWidth 16 <<< 8 ||| x.mic.segCause.setWidth 16) x.mic.segOff
    | 0x0A => x.latch 6 0x50 x.exc.trapAddr
    | 0x10 => st fun v => putBit v stPRIV true
    | 0x11 => st fun v => putBit v stPRIV false
    | 0x12 => st fun v => putBits v 6 (b.setWidth 3 : BitVec 3)
    | 0x13 => { x with mic := { x.mic with ledgeSp := true } }
    | 0x14 => st fun v => putBit v stRES true
    | 0x15 => st fun v => putBit v stRES false
    | 0x16 => x.ackBest
    | 0x17 => { x with exc := { x.exc with wdcount := x.exc.wdperiod } }
    | _ => x

/-- The CNT load of a word. -/
def Micro.cntLoad (m : Micro) (w : MicroWord) (b : Half) : Micro :=
  match cntOp w with
  | 1 => { m with cnt := BitVec.ofNat 12 ((mwCnt w).toNat % 16 + 1) }
  | 2 => { m with cnt := b.setWidth 12 }
  | _ => m

/-! ### The instruction queue (R79) -/

/-- The DEC queue op, at the end of the word's cycle. A word that has written PC through DST keeps that value at ADV. -/
def State.decUnit (s : State) (q : SeqId) (w : MicroWord) (pc : Half) (result : Half) : State :=
  match decOp w with
  | 1 => s.modSeq q fun x => if mwDst w = 0x13 then x.flush.retire x.regs.pc else x.retire (pc + 4)
  | 2 => (s.flow q pc result).modSeq q fun x => x.flush.retire result
  | 3 => s.modSeq q Seq.flush
  | 4 => s.modMic q fun m => { m with fpcMark := pc }
  | _ => s

/-! ### Dispatch (R89 to R92) -/

/-- ILLEGAL latched by the engine itself (R91). -/
def State.latchIllegal (s : State) (q : SeqId) (cause : Byte) : State :=
  s.modSeq q fun x =>
    let y := x.latch 1 (cause.setWidth 16) x.regs.pc
    { y with mic := { y.mic with fpcMark := x.regs.pc } }

/-- The map entry of an index: its address, or the microfault cause of the read; a corrected entry is counted. An entry of
0x000 in the vectors' range and above is a microfault. -/
def State.mapEntry (s : State) (q : SeqId) (idx : Nat) : Except Byte (BitVec 12) × State :=
  let t := (s.seq q).store
  if t.mue.contains idx then (.error 0x05, s) else
  let s := if t.mce.contains idx then s.storeCorrected q true (BitVec.ofNat 12 idx) else s
  let e := t.entry idx
  if e = 0 ∧ 0x200 ≤ idx then (.error 0x08, s) else (.ok e, s)

/-- Reads the map and goes there; the read is a cycle of class CTRL (R92). -/
def State.goMap (s : State) (q : SeqId) (a : BitVec 12) (idx : Nat) : State :=
  let s := s.cycle q 1
  match s.mapEntry q idx with
  | (.error c, s) => s.microfault q c a 0
  | (.ok e, s) => s.modMic q fun m => { m with next := e, disp := false }

/-- The vector of an entry by microcode: FPTRAP where a landing has set FPP (R232). -/
def Seq.entryVec (x : Seq) (v : Nat) : Seq × Nat :=
  if v ≠ 6 ∧ x.fptd then (x.latch 6 0x50 x.exc.trapAddr, 6) else (x, v)

/-- The entry of a vector: products and the pool operation land, the stack empties, the vector is taken, and the map is read
(R82, R86, R214, R237). -/
def State.enterVec (s : State) (q : SeqId) (a : BitVec 12) (v : Nat) : State :=
  let s := s.landAll q
  let (x, v) := (s.seq q).entryVec v
  let s := s.modSeq q fun _ => x
  let s := s.modMic q fun m => { m with stack := [], vec := none, disp := false, pairGo := false, ledgeSp := false }
  s.goMap q a (0x200 + v)

/-- As goMap; an invalid entry below 0x200 raises ILLEGAL 0x06 through entry 0x201, after the cycle of its own map read (R89,
R92). -/
def State.goIndex (s : State) (q : SeqId) (a : BitVec 12) (idx : Nat) : State :=
  match s.mapEntry q idx with
  | (.ok e, t) => if e = 0 then ((t.cycle q 1).latchIllegal q 0x06).enterVec q a 1 else s.goMap q a idx
  | (.error _, _) => s.goMap q a idx

/-- The breakpoint unit that matches the head, which has not met one yet (R371). -/
def State.headHit (s : State) (q : SeqId) : Option (Fin 8) :=
  if (s.seq q).dbg.bpSkip || (s.seq q).mic.head.faulted then none else
  match (s.regs q).check 0 (s.regs q).pc.toNat 4 .exec with
  | .error _ => none
  | .ok ea => s.bpMatch q ea

/-- Primary dispatch of the head, with BOUND as it was registered before the cycle (R64): BOUND, a faulted fetch or a breakpoint
that no lock defers takes entry 0x240, a format-0 word its major; a pair waits for its own cycle. A head that is not there holds
the dispatch. -/
def State.dispPrimary (s : State) (q : SeqId) (a : BitVec 12) (bound : Bool) : State :=
  if (s.seq q).headAway then s.modMic q fun m => { m with disp := true } else
  let hit := s.headHit q
  let stop := bound || (s.seq q).mic.head.faulted || (hit.isSome && (s.seq q).lock.isNone)
  let s := match hit with | none => s | some u => s.bpHalt q u
  let x := s.seq q
  let s := s.modMic q fun m => { m with fpcMark := x.regs.pc }
  if stop then s.goMap q a 0x240
  else
    let ir := x.mic.head.ir
    if bit ir 31 then s.modMic q fun m => { m with disp := true, pairGo := true }
    else s.goIndex q a (irMajor ir).toNat

/-- The pair path (R91, R92): the short-operation unit executes the head and retires it in a cycle of class CTRL. The DISP goes
on with the next head, or, with PAIR 0x1, ends (R80). -/
def State.pairPath (s : State) (q : SeqId) (a : BitVec 12) : State :=
  let w := (s.seq q).mic.head.ir
  match pairCause w with
  | some c => (s.latchIllegal q c).enterVec q a 1
  | none =>
    let one := mwPair ((s.seq q).store.word a.toNat) = 1
    let s := s.modRegs q (runPair (shortOf (w.extractLsb' 16 15)) (shortOf (w.extractLsb' 1 15)))
    let s := (s.cycle q 1).modSeq q fun x => x.retire (x.regs.pc + 4)
    s.modMic q fun m => { m with pairGo := false, disp := !one, next := if one then Config.afterPair a else m.next }

/-! ### Next address (NAC) -/

/-- A HOLDIF word stays. -/
def State.holdifStays (s : State) (q : SeqId) (c : Bool) : Bool := c && !(s.seq q).bud.budx && !(s.seq q).dhalt

/-- The index that MWAY forms (R84). -/
def State.mwayIndex (s : State) (q : SeqId) (w : MicroWord) : Nat :=
  let k := mwCsel w / 4
  ((List.range 4).map fun i => if s.cond q (4 * k + i) then 2 ^ i else 0).sum

/-- Next address and stack for the codes that neither dispatch, park nor enter; `s0` is the state before the word. -/
def Micro.advance (m : Micro) (s0 : State) (q : SeqId) (a : BitVec 12) (w : MicroWord) (c : Bool) : Micro :=
  let goto_ (t : BitVec 12) : Micro := { m with next := t }
  let tgt := mwTgt w
  let call : Micro := { m with next := tgt, stack := (a + 1) :: m.stack }
  match mwNac w with
  | 0 => goto_ (a + 1)
  | 1 => goto_ tgt
  | 2 => goto_ (if c then tgt else a + 1)
  | 3 => goto_ (if c then a + 1 else tgt)
  | 4 => call
  | 5 => if c then call else goto_ (a + 1)
  | 6 => { m with next := m.stack.headD 0, stack := m.stack.tail }
  | 8 => if (s0.seq q).mic.cnt = 0 then goto_ (a + 1) else { m with next := tgt, cnt := m.cnt - 1 }
  | 9 => goto_ (if s0.holdifStays q c then a else a + 1)
  | 10 => goto_ tgt
  | 12 => goto_ ((tgt &&& 0xFF0) ||| BitVec.ofNat 12 (s0.mwayIndex q w))
  | _ => m

/-- Index of a DISP word with a select other than 0 (R90). -/
def dispIndex (w : MicroWord) (ir : Word) : Nat :=
  let lit := (mwLit w).toNat
  let minor := (irMinor ir).toNat
  match decSel w with
  | 1 => 0x100 + lit % 16 * 16 + minor
  | 2 => 0x080 + lit % 8 * 16 + minor
  | _ => 0x200 + lit % 512

/-- The next address after the word has acted. -/
def State.nac (s s0 : State) (q : SeqId) (a : BitVec 12) (w : MicroWord) (c : Bool) : State :=
  match mwNac w with
  | 7 =>
    let s := s.modMic q fun m => { m with ledgeSp := false }
    let s := s.fetchHead q
    if decSel w = 0 then s.dispPrimary q a (s0.seq q).bound else s.goIndex q a (dispIndex w (s.seq q).mic.head.ir)
  | 10 => (s.modMic q fun m => m.advance s0 q a w c).park q
  | 11 => s.enterVec q a ((s.seq q).mic.vec.getD 0)
  | _ => s.modMic q fun m => m.advance s0 q a w c

/-! ### Holds (R65) and checks (R68) -/

def namesMemd (w : MicroWord) : Bool := mwAsrc w = 0x1C || mwAsrc w = 0x1D || mwBsrc w = 0x1C || mwBsrc w = 0x1D
def namesPoolr (w : MicroWord) : Bool := mwAsrc w = 0x1E || mwAsrc w = 0x1F || mwBsrc w = 0x1E || mwBsrc w = 0x1F

/-- The banks that a word's scratch access needs and that are not awake are woken (R261). -/
def State.memAsleep (s : State) (q : SeqId) (w : MicroWord) (off : Half) : Option State :=
  match ((s.seq q).segUnit w off).memAt q w with
  | .scratch a =>
    let o := a % 0x100000
    let n := memSize w
    let g := s.gal (galOf q)
    if g.bankAwake (bankOf o) && g.bankAwake (bankOf (o + n - 1)) then none else some (s.wakeBanks (galOf q) o n)
  | _ => none

/-- A request of a word with MPRT.WAIT lacks a tag, a credit or its reservation (R65, R271). -/
def State.portLacks (s : State) (q : SeqId) (w : MicroWord) : Bool :=
  let x := s.seq q
  let md := (s.gal (galOf q)).md
  let n := match x.mic.long with
    | some _ => 1
    | none => x.regs.wx (irForm x.mic.head.ir)
  (mprtOp w = 1 || mprtOp w = 2 || mprtOp w = 3)
    && (decide (1024 ≤ md.tags.length) || md.rq == 0
      || (mprtOp w ≠ 2 && decide (md.rd < pages (if mprtOp w = 3 then min n 4096 else n)))
      || (mprtOp w = 2 && s.pow.holdEn && !s.holdFits (s.writeResv (s.mkReq q 0 n (.put 0 0)))))

/-- A word that does not issue in this cycle: the state it waits in. -/
def State.microHold (s : State) (q : SeqId) (w : MicroWord) (off : Half) : Option State :=
  let x := s.seq q
  if (namesMemd w && (!x.mic.reads.isEmpty || x.mic.fabRead))
      || (namesPoolr w && x.pool.isSome)
      || (mprtWait w && s.portLacks q w)
      || (mwNac w = 7 && decSel w = 0 && decOp w ≠ 1 && decOp w ≠ 2 && decOp w ≠ 3 && x.headAway)
      || (mwExct w = 0x19 && !x.prods.isEmpty)
      || (memOp w ≠ 0 && x.mic.fab.isSome)
      || (poolOp w = 0xD && x.pool.isSome) then some s
  else s.memAsleep q w off

/-- The microfault that depends on the stack, the vector or the address (R82, R86, R87). -/
def State.runFault (s : State) (q : SeqId) (a : BitVec 12) (w : MicroWord) (c : Bool) : Option Byte :=
  let m := (s.seq q).mic
  let n := mwNac w
  let latches := decide (1 ≤ mwExct w) && decide (mwExct w ≤ 0x0A)
  let inc := n = 0 || (n = 2 && !c) || (n = 3 && c) || n = 4 || n = 5 || (n = 8 && m.cnt == 0) || (n = 9 && !s.holdifStays q c)
  if (n = 4 || (n = 5 && c)) && decide (8 ≤ m.stack.length) then some 0x06
  else if n = 6 && m.stack.isEmpty then some 0x07
  else if n = 11 && m.vec.isNone && !latches then some 0x0A
  else if a.toNat = 4095 && inc then some 0x0B
  else if n = 7 && !m.stack.isEmpty then some 0x0C
  else none

/-- The lowest cause that a word meets (R95). -/
def State.wordFault (s : State) (q : SeqId) (a : BitVec 12) (w : MicroWord) (c : Bool) : Option (Byte × Nat) :=
  match mwFault w, s.runFault q a w c with
  | none, none => none
  | some f, none => some f
  | none, some k => some (k, 0)
  | some f, some k => if f.1.toNat < k.toNat then some f else some (k, 0)

/-! ### Issue -/

/-- The operand that a MEM write stores. -/
def memValue (w : MicroWord) (result a b : Half) : Half := match memData w with | 0 => result | 1 => a | _ => b

/-- The units of a word, DST, FLG, the counter and EXCT, in the state at its issue. The segment unit checks the result after the
shifter as the offset: the manual calls it the ALU result (DESIGN CHOICE, log 101). -/
def State.units (s : State) (q : SeqId) (a : BitVec 12) (w : MicroWord) (c : Bool) : State :=
  let x := s.seq q
  let av := x.operand q w (mwAsrc w)
  let bv := x.operand q w (mwBsrc w)
  let y := x.result w av bv
  let s := s.modSeq q fun x => { x with mic := { x.mic.took w y (x.crcStep w bv) with upc := a } }
  let s := s.modSeq q fun x => x.segUnit w y.val
  let s := s.memAccess q w (memValue w y.val av bv)
  let s := (s.mulUnit q w av bv).poolUnit q w
  let s := (s.strmUnit q w).mprtUnit q w
  let s := s.evtUnit q w av y.val
  let s := s.modSeq q fun x => (x.putDst q w (mwDst w) y.val).putFlg w c
  let s := s.modMic q fun m => m.cntLoad w bv
  s.modSeq q fun x => x.exct w bv y.val

/-- The end of a microword while microwords are stepped (R367). -/
def State.microStepped (s : State) (q : SeqId) : State :=
  let x := s.seq q
  if x.dbg.steps = 0 || !x.dbg.stepUnit then s else
  let last := x.dbg.steps = 1
  let s := s.modSeq q fun x => { x with
    exc := { x.exc with wdcount := x.exc.wdperiod }
    dbg := { x.dbg with steps := x.dbg.steps - 1, why := if last then 6 else x.dbg.why } }
  if last then s.haltSeq q else s

/-- A word issues and acts. The class of a word with EXCT 0x18 is debited before the reset. -/
def State.actWord (s : State) (q : SeqId) (a : BitVec 12) (w : MicroWord) (c : Bool) : State :=
  let s0 := s
  let x := s.seq q
  let pc := x.regs.pc
  let result := (x.result w (x.operand q w (mwAsrc w)) (x.operand q w (mwBsrc w))).val
  let s := (s.units q a w c).fresh
  let s := s.cycle q (mwBud w)
  if mwExct w = 0x18 then s.thirdFault q 5 pc else
  let s := s.decUnit q w pc result
  let s := s.modCond q fun k => { k with mulland := false }
  (s.nac s0 q a w c).microStepped q

/-- A microbreak: the sequencer halts before the word issues, with WHY 3 whatever request was waiting (R81, R364). The request's
deferral ends with it, which forces nothing (R368). -/
def State.microBreak (s : State) (q : SeqId) : State :=
  (s.modSeq q fun x => { x with dbg := { x.dbg with why := 3, defer := false, ubSkip := true } }).haltSeq q

/-- The word at the next address: ECC, microbreak, holds, the checks, and the word. A corrected word counts when its hold has
ended: its code was read once (R93). -/
def State.issueWord (s : State) (q : SeqId) : State :=
  let x := s.seq q
  let a := x.mic.next
  if x.store.ue.contains a.toNat then s.microfault q 0x04 a 0 else
  let w := x.store.word a.toNat
  if mwBrk w && x.dbg.ubrken && !x.dbg.ubSkip then s.microBreak q else
  let c := s.condOf q w
  let y := x.result w (x.operand q w (mwAsrc w)) (x.operand q w (mwBsrc w))
  match s.microHold q w y.val with
  | some s => s.modSeq q Seq.spendCc
  | none =>
    let s := if x.store.ce.contains a.toNat then s.storeCorrected q false a else s
    let s := s.modSeq q fun x => { x with dbg := { x.dbg with ubSkip := false } }
    match if namesMemd w then x.mic.ueHeld else none with
    | some (seg, off) =>
      let s := s.modMic q fun m => { m with ueHeld := none }
      (s.modSeq q fun x => x.latch 3 (seg.setWidth 16 <<< 8 ||| 0x20) off).enterVec q a 3
    | none =>
      match s.wordFault q a w c with
      | some (k, f) => s.microfault q k a f
      | none => s.actWord q a w c

/-- The sequencer issues microwords: out of reset, not parked, halted, stalled or stopped, and between the instructions that
the instruction commands run (log 16). -/
def State.microReady (s : State) (q : SeqId) : Bool :=
  let x := s.seq q
  s.alive q && (x.run == .active || x.run == .word0) && !x.dbg.halted && !x.bud.stuck && x.wait == .none

/-- A dispatch that is still to be made: the pair that it has chosen executes in its own cycle, unless another head follows a
pair, which is dispatched and, where it is a pair, executed in one cycle (R91, R92). -/
def State.chain (s : State) (q : SeqId) (bound : Bool) : State :=
  let a := (s.seq q).mic.upc
  if (s.seq q).mic.pairGo then s.pairPath q a
  else if (s.seq q).headAway then s.modSeq q Seq.spendCc
  else
    let s := s.dispPrimary q a bound
    if (s.seq q).mic.pairGo then s.pairPath q a
    else if s.microReady q then s.issueWord q
    else s

/-- MICROWORD_ISSUE: the queue's fetch, then the word at the next address; a dispatch still to be made comes first. -/
def State.microIssue (s : State) (q : SeqId) : State :=
  if !s.microReady q then s else
  let bound := (s.seq q).bound
  let s := s.fetchCycle q
  if (s.seq q).mic.disp then s.chain q bound else s.issueWord q

def execMicrowordIssue (q : SeqId) (s : State) : Out State := .next (s.microIssue q)

/-! ### Data that returns -/

/-- SCRATCH_READ_RETURN: the oldest read in flight arrives in MEMD; MEMRDY once it is the newest (R64, R77). -/
def State.readReturn (s : State) (q : SeqId) : State :=
  match (s.seq q).mic.reads with
  | [] => s
  | p :: ps =>
    if !s.logicOn (galOf q) then s else
    s.modMic q fun m => { m with
      memd := p.value, memrdy := ps.isEmpty && !m.fabRead, reads := ps
      ueHeld := if p.poisoned then some (p.seg, p.off) else m.ueHeld }

def execScratchReadReturn (q : SeqId) (s : State) : Out State := .next (s.readReturn q)

/-- The answer of a fabric request: RETRY, FENCED or another error, or none (R88, R351). -/
def State.fabEnd (s : State) (q : SeqId) (retry fenced err : Bool) : State :=
  s.modSeq q fun x => { x with
    mic := { x.mic with fab := none }, cond := { x.cond with retry := retry, fenced := fenced, faberr := err } }

/-- A read's data. -/
def State.fabData (s : State) (q : SeqId) (f : FabReq) (v : Nat) (poisoned : Bool) : State :=
  (s.fabEnd q false false false).modMic q fun m => { m with
    memd := BitVec.ofNat 32 v, memrdy := m.reads.isEmpty, ueHeld := if poisoned then some (f.seg, f.off) else m.ueHeld }

/-- FABRIC_REQUEST: the request of microcode reaches its target and is served, retried or refused by the target's state. -/
def State.fabricRequest (s : State) (q : SeqId) : State :=
  match (s.seq q).mic.fab with
  | none => s
  | some f =>
    if !s.logicOn (galOf q) then s else
    match f.data with
    | some bs =>
      match s.memWrite q f.addr bs with
      | .ok s _ => s.fabEnd q false false false
      | .bus s c => s.fabEnd q false (c == 0x22) (c != 0x22)
      | .wait s => s
      | .retry => s.fabEnd q true false false
    | none =>
      match s.memRead q f.addr f.size with
      | .ok s v => s.fabData q f (ofLeBytes v) false
      | .bus s c => if c = 0x20 then s.fabData q f (s.mem.readLE f.addr f.size) true else s.fabEnd q false (c == 0x22) (c != 0x22)
      | .wait s => s
      | .retry => s.fabEnd q true false false

def execFabricRequest (q : SeqId) (s : State) : Out State := .next (s.fabricRequest q)

end Sys2Proof.Machine
end

