-- ==== Sys2Proof/Machine/Firmware.lean ====
section
/-!
DEFINITION. The MP's commands on the engine itself, on microcode and on firmware: 0x0101 to 0x0105 (R324 to R326), 0x0201 to
0x0207 (R98 to R120, R327); the engine watchdog and the MP's warm reset (R319, R354, R380).
-/

namespace Sys2Proof.Machine

open Sys2Proof

/-! ### Engine (R324 to R326) -/

/-- Registers in a reply, 4 bytes each, without RC or RS effects (R323). -/
def State.regBytes (s : State) (rs : List Reg) : List Byte := rs.flatMap fun r => leBytes 4 (s.regValue r).toNat

/-- The least control-store IMGVER that the running firmware accepts (R105). -/
def State.floor (s : State) : Word := if s.mp.bank then Config.fwFloor s.mp.fwRam else Config.bootFloor

def State.engInfo (s : State) (m : MbId) : State :=
  s.reply m mbOK 0 (s.regBytes [.engid, .engver, .engcfg, .mpfwver, .mpbank] ++ leBytes 4 s.floor.toNat
    ++ leBytes 4 0x00010000 ++ s.regBytes [.mpstg])

/-- ENG_INFO. -/
def execEngInfo (m : MbId) (s : State) : Out State :=
  .next (s.command m 0x0101 true [] (fun s => s.engInfo m) true)

/-- ENG_STATUS. -/
def execEngStatus (m : MbId) (s : State) : Out State :=
  .next (s.command m 0x0102 true [] (fun s => s.reply m mbOK 0
    (s.regBytes [.engst, .ledgst, .plantst, .holdst, .ctxst, .ticknum false, .ticknum true, .hirq])) true)

/-- The transitions of ENG_STATE with their conditions (R325). -/
def State.transition (s : State) (target : Nat) : Option (EngState × Bool) :=
  match s.eng.state, target with
  | .start, 5 => some (.service, s.ledger.armed)
  | .start, 7 => some (.test, true)
  | .test, 4 => some (.start, true)
  | .service, 6 => some (.recovery, true)
  | .recovery, 5 => some (.service, s.ledger.armed && !s.ledger.recount)
  | _, _ => none

/-- Timer AUTO clears everywhere (R307). -/
def State.clearAuto (s : State) : State :=
  s.each s.galleries fun s g => s.modGal g fun x => { x with timers := x.timers.map fun t => { t with auto := false } }

def State.closeWin (s : State) : State := { s with eng := { s.eng with win := false } }

/-- Entering a state by command; SERVICE clears AUTO and closes the window. -/
def State.enterState (s : State) (m : MbId) (st : EngState) : State :=
  let old := s.eng.state.code
  let s := if st == .service then s.clearAuto.closeWin else s
  (s.setEng st).reply m mbOK 0 [BitVec.ofNat 8 old, BitVec.ofNat 8 st.code, 0, 0]

def State.engState (s : State) (m : MbId) : State :=
  let target := s.arg m 0 1
  s.command m 0x0103 s.operating [badIf (target = 0 || decide (7 < target)) 0, s.zeroAt m 1 3] fun s =>
    match s.transition target with
    | none => s.reply m mbSTATE s.eng.state.code
    | some (st, true) => s.enterState m st
    | some (_, false) => s.reply m mbSTATE (s.ledger.ledgst.toNat % 65536)

/-- ENG_STATE. -/
def execEngState (m : MbId) (s : State) : Out State := .next (s.engState m)

/-- WIN_OPEN: DENIED in SERVICE. -/
def execWinOpen (m : MbId) (s : State) : Out State :=
  .next (s.command m 0x0104 true [(s.eng.state == .service, mbDENIED, 0)] fun s =>
    ({ s with eng := { s.eng with win := true } } : State).reply m mbOK)

/-- WIN_CLOSE. -/
def execWinClose (m : MbId) (s : State) : Out State :=
  .next (s.command m 0x0105 true [] fun s => s.closeWin.reply m mbOK)

/-! ### Fields that several commands share -/

/-- The payload's galleries: a mask with bits of absent galleries (R323). -/
def State.absentMask (s : State) (mask : Nat) : Bool := (List.finRange 16).any fun g => mask.testBit g.val && !s.present g

/-- A gallery number that no gallery of the configuration has. -/
def State.absentGal (s : State) (n : Nat) : Bool := decide (s.variant.ngal ≤ n)

/-- A range of buffer memory, region 0b01 (R25, R323). -/
def inBuffer (a n : Nat) : Bool := decide (0x4000000000000 ≤ a) && decide (a + n ≤ 0x8000000000000)

/-- A range that overlaps the MPSTG region (R101). -/
def State.inStaging (s : State) (a n : Nat) : Bool :=
  let b := s.mp.stgBase.toNat * 0x400000
  decide (b ≠ 0) && overlaps a n (b, 0x400000)

/-- The two checks of a buffer-memory address field (R323). -/
def State.bufferChecks (s : State) (a n off : Nat) : List Check :=
  [badIf (!inBuffer a n) off, (s.inStaging a n, mbDENIED, 0)]

/-! ### Images (R98 to R100) -/

/-- A field of the image at an engine address. -/
def State.img (s : State) (a off n : Nat) : Nat := s.mem.readLE (a + off) n

/-- TAGLEN of a HASH code; 0 for a code the table does not list. -/
def tagLenOf (hash : Nat) : Nat := if hash = 1 then 32 else if hash = 2 then 48 else if hash = 3 then 64 else 0

/-- PLEN that COUNT gives; none where the payload is opaque and COUNT must be 0. -/
def State.imgLen (s : State) (a : Nat) : Option Nat :=
  let kind := s.img a 0x05 1
  if kind ≤ 2 then some (24 * s.img a 0x10 4) else if kind ≤ 4 then some (2 * s.img a 0x10 4) else none

/-- The refusals of R100, and a KIND that the command does not take (R327). -/
def State.imgBad (s : State) (a : Nat) (kinds : List Nat) : Bool :=
  let taglen := tagLenOf (s.img a 0x06 1)
  let plen := s.img a 0x14 4
  s.img a 0 4 ≠ 0x49544D49 || s.img a 0x04 1 ≠ 1 || !kinds.contains (s.img a 0x05 1) || taglen = 0
    || s.img a 0x1C 1 ≠ taglen || s.img a 0x1D 35 ≠ 0 || decide (524288 < plen)
    || match s.imgLen a with
       | some n => decide (plen ≠ n)
       | none => s.img a 0x10 4 ≠ 0

/-- The part that an image holds (R98, R99). DESIGN CHOICE (log 93): bits [15:12] of a map entry, which R99 says are zero, are
dropped where they are not. -/
def State.imgPart (s : State) (a : Nat) : ImgPart :=
  let kind := s.img a 0x05 1
  let count := s.img a 0x10 4
  { kind := BitVec.ofNat 8 kind
    slot := BitVec.ofNat 8 (s.img a 0x07 1)
    imgver := BitVec.ofNat 32 (s.img a 0x08 4)
    lic := BitVec.ofNat 16 (s.img a 0x0C 2)
    first := s.img a 0x0E 2
    bindver := BitVec.ofNat 32 (s.img a 0x18 4)
    words := if kind ≤ 2 then (List.range count).map fun i => BitVec.ofNat 192 (s.img a (64 + 24 * i) 24) else []
    entries := if kind = 3 ∨ kind = 4 then (List.range count).map fun i => BitVec.ofNat 12 (s.img a (64 + 2 * i) 2) else [] }

/-- The OK reply of the staging commands. -/
def imgReply (p : ImgPart) : List Byte := [p.kind, 0, 0, 0] ++ leBytes 4 p.imgver.toNat

/-- A staging command: the fields of IMG, the transfer, the copy into the MPSTG region, the checks of the header, then the
command's own part. -/
def State.stageCmd (s : State) (m : MbId) (code : Nat) (kinds : List Nat) (before after : List Check) (x : MpXfer)
    (body : ImgPart → State → State) : State :=
  let a := s.arg m 0 8
  let size := s.arg m 8 4
  s.command m code true
    (before ++ s.bufferChecks a size 0 ++ [badIf (size < 64) 8, s.zeroAt m 0x0C 4] ++ after) fun t =>
    t.xferDo m x 0 false a size fun t =>
      let (t, dst) := t.stageCopy a size
      if s.imgBad a kinds then t.reply m mbBADARG 0
      else if size ≠ 64 + s.img a 0x14 4 + s.img a 0x1C 1 then t.reply m mbBADARG 8
      else body { s.imgPart a with place := dst, size := size } t

/-- A commit in progress holds the image set (R102). -/
def State.setHeld (s : State) : Check := (!s.mp.commits.isEmpty, mbBUSY, 0)

/-! ### Staging (R101, R102) -/

/-- A part takes its place in a set. -/
def ImgSet.put (m : ImgSet) (p : ImgPart) : ImgSet :=
  match p.kind.toNat with
  | 1 => { m with af := some p }
  | 2 => { m with lic := some p }
  | 3 => { m with afmap := some p }
  | _ => { m with licmap := some p }

/-- The image replaces the staged one of its kind and clears the verified mark. -/
def State.stageSet (m : MbId) (p : ImgPart) (s : State) : State :=
  ({ s with mp := { s.mp with staged := s.mp.staged.put p, verified := false } } : State).reply m mbOK 0 (imgReply p)

/-- UCODE_STAGE. -/
def execUcodeStage (m : MbId) (x : MpXfer) (s : State) : Out State := .next (s.stageCmd m 0x0201 [1, 2] [] [s.setHeld] x (State.stageSet m))

/-- MAP_LOAD. -/
def execMapLoad (m : MbId) (x : MpXfer) (s : State) : Out State := .next (s.stageCmd m 0x0204 [3, 4] [] [s.setHeld] x (State.stageSet m))

/-! ### Authentication of a set (R103) -/

/-- The parts of a set in ascending KIND. -/
def ImgSet.parts (m : ImgSet) : List ImgPart := m.af.toList ++ m.lic.toList ++ m.afmap.toList ++ m.licmap.toList

/-- The key-store slot of an image's owner. -/
def slotOf (kind : Byte) : Byte := if kind = 2 ∨ kind = 4 then Config.licSlot else Config.aferSlot

/-- Every part in order, each with the comparator's answer for it; the first that fails with the status it gives. A comparison for
which none is given did not answer in time. -/
def State.authParts (s : State) : List ImgPart → List CmpPair → (checkSlot : Bool) → Option (Byte × ImgPart) × State
  | [], _, _ => (none, s)
  | p :: ps, tags, checkSlot =>
    if checkSlot && p.slot != slotOf p.kind then (some (mbDENIED, p), s) else
    match s.authenticate (tags.headD { eq := false, eqn := false, late := true }) with
    | (true, s) => State.authParts s ps tags.tail checkSlot
    | (false, s) => (some (mbAUTHFAIL, p), s)

/-! ### Set checks (R104) -/

/-- The parts that a commit would install: the staged ones, others as installed. -/
def ImgSet.overlay (m base : ImgSet) : ImgSet where
  af := m.af.orElse fun _ => base.af
  lic := m.lic.orElse fun _ => base.lic
  afmap := m.afmap.orElse fun _ => base.afmap
  licmap := m.licmap.orElse fun _ => base.licmap

/-- Words or entries FIRST up with their places; none of a boot-ROM part, which the MP does not check again (log 60). -/
def ImgPart.placedWords (p : ImgPart) : List (Nat × MicroWord) :=
  if p.boot then [] else (List.range p.words.length).map fun i => (p.first + i, p.words.getD i 0)
def ImgPart.placedEntries (p : ImgPart) : List (Nat × BitVec 12) :=
  if p.boot then [] else (List.range p.entries.length).map fun i => (p.first + i, p.entries.getD i 0)

/-- The words of a control-store payload, which carry its export list. -/
def ImgPart.payload (p : ImgPart) : List MicroWord := if p.boot then (List.range 0xC00).map Config.bootWord else p.words

/-- The first place that fails a check. -/
def firstBad {α : Type} (l : List (Nat × α)) (bad : Nat → α → Bool) : Option Nat := (l.find? fun e => bad e.1 e.2).map fun e => e.1

/-- Rows 1 and 2: COUNT and the range of words. -/
def ImgPart.rangeBad (p : ImgPart) (lo hi : Nat) : Option Nat :=
  if p.boot then none else if p.words.isEmpty then some p.first else firstBad p.placedWords fun a _ => decide (a < lo) || decide (hi ≤ a)

/-- A word that fails the issue checks of R68, R95 or R87. -/
def wordBad (a : Nat) (w : MicroWord) : Bool := (mwFault w).isSome || (a = 0xFFF && incrementsAlways w)

/-- Licensee rules on one word (rows 7 to 11). DESIGN CHOICE (log 94): row 7 judges the TGT field of a HOLDIF word, whose next
address does not use it (R69). -/
def licTarget (w : MicroWord) : Bool := decide (0xC00 ≤ (mwTgt w).toNat)
def licJumpBad (w : MicroWord) : Bool :=
  (mwNac w = 1 || mwNac w = 2 || mwNac w = 3 || mwNac w = 8 || mwNac w = 9) && !licTarget w
def licCallBad (exports : List (BitVec 12)) (w : MicroWord) : Bool :=
  (mwNac w = 4 || mwNac w = 5) && !licTarget w && !exports.contains (mwTgt w)
def licExctBad (w : MicroWord) : Bool :=
  !(decide (mwExct w ≤ 0x0A) || mwExct w = 0x19) || (mwNac w = 7 && !(decSel w = 0 || decSel w = 2))
def licYieldBad (w : MicroWord) : Bool := (mwNac w = 10 || mwNac w = 12) && !licTarget w
def licDstBad (w : MicroWord) : Bool :=
  let n := (mwLit w).toNat % 32
  mwDst w = 0x15 || ((mwDst w = 0x16 || mwDst w = 0x17) && (n = 0 || (decide (0x10 ≤ n) && decide (n ≤ 0x15))))

/-- BINDVER of a part that belongs with another control-store version; the boot-ROM map belongs with the boot-ROM part (R113). -/
def ImgSet.bindBad (m : ImgSet) (p : ImgPart) : Bool := match m.af with | some a => a.imgver != p.bindver | none => true

/-- The first failure of a set: the part's KIND, the row of the table from 1, the word or entry. -/
def ImgSet.fault (m : ImgSet) : Option (Byte × Byte × Nat) :=
  let on (row : Byte) (p : Option ImgPart) (f : ImgPart → Option Nat) : Option (Byte × Byte × Nat) :=
    p.bind fun p => (f p).map fun a => (p.kind, row, a)
  let bind_ (p : Option ImgPart) := on 5 p fun p => if m.bindBad p then some 0 else none
  let lic (row : Byte) (bad : MicroWord → Bool) := on row m.lic fun p => firstBad p.placedWords fun _ w => bad w
  let exports := Config.exportList ((m.af.map ImgPart.payload).getD [])
  [on 1 m.af fun p => p.rangeBad 0 0xC00,
    on 2 m.lic fun p => p.rangeBad 0xC00 0x1000,
    on 3 m.afmap fun p => firstBad p.placedEntries fun i v =>
      licEntry i || decide (0x400 ≤ i) || v = 0 || decide (0xC00 ≤ v.toNat),
    on 4 m.licmap fun p => firstBad p.placedEntries fun i v => !licEntry i || (v != 0 && decide (v.toNat < 0xC00)),
    bind_ m.lic, bind_ m.afmap, bind_ m.licmap,
    on 6 m.af fun p => firstBad p.placedWords wordBad, on 6 m.lic fun p => firstBad p.placedWords wordBad,
    lic 7 licJumpBad, lic 8 (licCallBad exports), lic 9 licExctBad, lic 10 licYieldBad, lic 11 licDstBad].findSome? id

/-! ### UCODE_VERIFY -/

/-- The 8-byte reply of UCODE_VERIFY. -/
def verifyReply (kind check : Byte) (at_ : Nat) : List Byte := [kind, check, 0, 0] ++ leBytes 4 at_

/-- The galleries of a mask, ascending. -/
def State.maskGals (s : State) (mask : Nat) : List GalId := s.galleries.filter fun g => mask.testBit g.val

/-- The sets that a commit to these galleries would install; with no gallery, the staged parts by themselves. -/
def State.targetSets (s : State) (gs : List GalId) : List ImgSet :=
  if gs.isEmpty then [s.mp.staged] else gs.map fun g => s.mp.staged.overlay (s.gal g).installed

/-- The set checks and the floor (R104, R105); a set that passes is marked verified. DESIGN CHOICE (log 95): one that fails leaves
an earlier mark as it is. -/
def State.verifySets (s : State) (m : MbId) (gs : List GalId) : State :=
  match (s.targetSets gs).findSome? ImgSet.fault with
  | some (k, row, a) => s.reply m mbBADARG 0 (verifyReply k row a)
  | none =>
    if (s.targetSets gs).any fun x => x.af.any fun p => p.imgver < s.floor then s.reply m mbDENIED 0 (verifyReply 1 0 0)
    else ({ s with mp := { s.mp with verified := true } } : State).reply m mbOK 0 (List.replicate 8 0)

/-- UCODE_VERIFY. A field of its own that fails has the 8-byte reply too, with no part to name. DESIGN CHOICE (log 96): with nothing
staged it answers STATE. -/
def State.ucodeVerify (s : State) (m : MbId) (tags : List CmpPair) : State :=
  let mask := s.arg m 0 2
  let fields := if s.absentMask mask then some 0 else if s.arg m 2 2 ≠ 0 then some 2 else none
  s.command m 0x0202 true [] fun s =>
    match fields with
    | some off => s.reply m mbBADARG off (verifyReply 0 0 0)
    | none =>
      if !s.mp.commits.isEmpty then s.reply m mbBUSY
      else if s.mp.staged.parts.isEmpty then s.reply m mbSTATE
      else match s.authParts s.mp.staged.parts tags true with
        | (some (st, p), s) => s.reply m st 0 (verifyReply p.kind 0 0)
        | (none, s) => s.verifySets m (s.maskGals mask)

/-- UCODE_VERIFY. -/
def execUcodeVerify (m : MbId) (tags : List CmpPair) (s : State) : Out State := .next (s.ucodeVerify m tags)

/-! ### UCODE_COMMIT (R106 to R112) -/

/-- Why a target gallery cannot be committed: BUSY where a procedure holds it, STATE where it does not meet R106. -/
def State.commitRefused (s : State) (restore : Bool) (g : GalId) : Option Byte :=
  let x := s.gal g
  let held := x.gstate == .squeezed || x.gstate == .fenced
  if x.gstate == .squeezing || x.power.isSome then some mbBUSY
  else if !s.logicOn g then some mbSTATE
  else if restore && x.installed.af.isNone then some mbSTATE
  else if s.eng.state == .load || held || ((s.eng.state == .start || s.eng.state == .test) && x.gstate == .serving) then none
  else some mbSTATE

/-- The commit of a mailbox is over. -/
def State.dropCommit (s : State) (m : MbId) : State :=
  { s with mp := { s.mp with commits := s.mp.commits.filter fun c => c.box != m } }

/-- A commit waits: for a squeeze, or while a gallery's stores are written. -/
def State.keepCommit (s : State) (c : Commit) : State :=
  let s := s.dropCommit c.box
  { s with mp := { s.mp with commits := s.mp.commits ++ [c] } }

/-- The commit ends with its reply. -/
def State.commitEnd (s : State) (m : MbId) (status : Byte) (done failed : Half) : State :=
  (s.dropCommit m).reply m status 0 (if status = mbAUTHFAIL then [] else leBytes 2 done.toNat ++ leBytes 2 failed.toNat)

/-- One gallery's commit failed: PARTIAL with the masks. -/
def State.commitPartial (s : State) (m : MbId) (done : Half) (g : GalId) : State :=
  s.commitEnd m mbPARTIAL done (putBit 0 g.val true)

/-- A UCODE_COMMIT with its FLAGS, the galleries whose read-back differs, and the gallery at whose writing this command leaves it,
so that what meets a commit in progress (R112) can come next. -/
structure CommitRun where
  box : MbId
  restore : Bool
  bad : Half
  pause : Option GalId

/-- The commit goes on with the galleries that are left: a serving one is squeezed first and waited for (R107). `writing`: the
stores of the first are being written, its copy's tag has been checked. -/
def State.commitGo (c : CommitRun) (writing : Bool) : List GalId → Half → List CmpPair → State → State
  | [], done, _, s => s.commitEnd c.box mbOK done 0
  | g :: rest, done, tags, s =>
    let keep (w : Bool) (s : State) : State := s.keepCommit { box := c.box, todo := g :: rest, done := done, writing := w }
    let set := if c.restore then (s.gal g).installed else s.mp.staged.overlay (s.gal g).installed
    if (s.gal g).gstate == .serving then keep false (s.squeezeStart g 1 none)
    else if (s.gal g).gstate == .squeezing then keep false s
    else if !s.logicOn g then s.commitPartial c.box done g
    else
      match if c.restore && !writing then s.authParts set.parts tags false else (none, s) with
      | (some _, s) => if done = 0 then s.commitEnd c.box mbAUTHFAIL 0 0 else s.commitPartial c.box done g
      | (none, s) =>
        if c.pause = some g ∧ !writing then keep true (s.commitBegin g) else
        let b := bit c.bad g.val
        let s := s.commitGal g set b
        if b then s.commitPartial c.box done g
        else State.commitGo c false rest (putBit done g.val true)
          (if c.restore && !writing then tags.drop set.parts.length else tags) s

/-- A commit in progress names the gallery (R112). -/
def State.inCommit (s : State) (g : GalId) : Bool := s.mp.commits.any fun c => c.todo.contains g

/-- UCODE_COMMIT is accepted: it leaves the queue and starts. -/
def State.commitStart (s : State) (m : MbId) (tags : List CmpPair) (bad : Half) (pause : Option GalId) : State :=
  let mask := s.arg m 0 2
  let flags := s.arg m 2 2
  let restore := flags % 2 = 1
  let refused := (s.maskGals mask).findSome? (s.commitRefused restore)
  s.command m 0x0203 true
    [badIf (s.absentMask mask) 0, badIf (2 ≤ flags) 2, (!restore && !s.mp.verified, mbSTATE, 0),
      ((s.maskGals mask).any s.inCommit, mbBUSY, 0), (refused.isSome, refused.getD 0, 0)] fun s =>
    State.commitGo { box := m, restore := restore, bad := bad, pause := pause } false (s.maskGals mask) 0 tags (s.behind m)

/-- UCODE_COMMIT: a commit of this mailbox that is in progress goes on, another message starts one. -/
def State.ucodeCommit (s : State) (m : MbId) (tags : List CmpPair) (bad : Half) (pause : Option GalId) : State :=
  match s.mp.commits.find? fun c => c.box = m with
  | some c =>
    if s.eng.mpbusy || s.pd.active then s
    else State.commitGo { box := m, restore := s.arg m 2 2 % 2 = 1, bad := bad, pause := pause } c.writing c.todo c.done tags s
  | none => s.commitStart m tags bad pause

def execUcodeCommit (m : MbId) (tags : List CmpPair) (bad : CommitCourse) (s : State) : Out State :=
  .next (s.ucodeCommit m tags bad.bad bad.pause)

/-! ### MP warm reset (R353, R354) -/

/-- A mailbox that waits for a long command no longer does: it is answered when the MP is back (R319). -/
def Gal.orphanBoxes (x : Gal) : Gal :=
  { x with power := x.power.map fun e => (e.1, none), squeeze := x.squeeze.map fun e => (none, e.2) }

/-- The MP's own memory after a warm reset: commands in progress, patches and breakpoints are gone; staged images, bank 1 and
program objects stay in their memories. -/
def Mp.warm (x : Mp) (bank : Bool) : Mp :=
  { x with
    up := false, bank := bank, patches := none, patchUnits := Vector.replicate 24 0, commits := [], stepping := [], closing := []
    bpAddrL := Vector.replicate 8 0, bpAddrH := Vector.replicate 8 0, bpCtl := Vector.replicate 8 0x0000FFFF }

/-- The MP starts a warm reset into a bank: ENGST.MPBUSY, HIRQ.MPRST, MP registers and patch units, sessions 252 to 255. -/
def State.mpReset (s : State) (bank : Bool) : State :=
  let s := { s with
    mp := s.mp.warm bank
    eng := { s.eng with mpbusy := true }
    plant := { s.plant with writes := [] }
    mb := { s.mb with queue := [] } }
  let s := s.each s.galleries fun s g => s.modGal g Gal.orphanBoxes
  let s := s.each [252, 253, 254, 255] State.closeSession
  s.hirq hirqMprst

/-- RSTCAUSE bit i. -/
def State.rstBit (s : State) (i : Nat) : State := { s with eng := { s.eng with rstcause := putBit s.eng.rstcause i true } }

/-- The firmware of bank 1 had not set UP: bank 0, FALLBK, HIRQ.FWFALLBK and a record (R118). -/
def State.fallBack (s : State) : State :=
  let s := s.record 7 (recSrc 4 0 0xFF) .important (leBytes 4 s.mp.b1ver.toNat)
  ({ s with mp := { s.mp with fallbk := true } } : State).hirq hirqFwfallbk

/-- ENGINE_WATCHDOG_EXPIRY (R380): COUNT has reached 0. -/
def State.ewdExpiry (s : State) : State :=
  let fall := s.mp.bank && !s.mp.up
  let s := s.mpReset (s.mp.bank && !fall)
  let s := s.rstBit 3
  let s := s.record 9 (recSrc 4 0 0xFF) .important (leBytes 4 s.mp.mpbank.toNat)
  let s := if fall then s.fallBack else s
  { s with aon := { s.aon with ewdCount := s.aon.ewdPeriod } }

def execEngineWatchdogExpiry (s : State) : Out State := .next s.ewdExpiry

/-- The busy mailboxes are answered INTERNAL in ascending order (R319). -/
def State.answerInterrupted (s : State) : State :=
  s.each ((List.finRange 64).filter fun m => bit s.mb.busy m.val) fun s m => s.reply m mbINTERNAL 0x0001

/-- MP_WARM_RESET_RETURN: the firmware of the bank has started; mailboxes are answered, HIRQ.MPRST sets again, squeezes that
have nothing left to move end, and held items take slots. -/
def State.mpReturn (s : State) : State :=
  if !s.eng.mpbusy then s else
  let s := { s with
    mp := { s.mp with up := true, fwver := if s.mp.bank then s.mp.b1ver else Config.bootFwVer, stgBase := 0x10000000 }
    eng := { s.eng with mpbusy := false } }
  let s := s.answerInterrupted.hirq hirqMprst
  s.each s.galleries fun s g => (s.squeezeCheck g).placeHeld g

/-! ### Firmware and patches (R116 to R119) -/

/-- Authentication of one firmware or patch image. -/
def State.authImage (s : State) (m : MbId) (p : ImgPart) (tag : CmpPair) (body : State → State) : State :=
  if p.slot != Config.aferSlot then s.reply m mbDENIED else
  match s.authenticate tag with
  | (true, s) => body s
  | (false, s) => s.reply m mbAUTHFAIL

/-- The payload of the image that a staging command names. -/
def State.payloadAt (s : State) (m : MbId) : List Byte := s.mem.readBytes (s.arg m 0 8 + 64) (s.img (s.arg m 0 8) 0x14 4)

/-- FW_STAGE: only while the MP runs from bank 0; the payload enters bank 1 (R116). -/
def State.fwStage (s : State) (m : MbId) (x : MpXfer) (tag : CmpPair) : State :=
  s.stageCmd m 0x0205 [5] [(s.mp.bank, mbSTATE, 0)] [] x fun p t => t.authImage m p tag fun t =>
    ({ t with mp := { t.mp with b1valid := true, b1ver := p.imgver, fwRam := s.payloadAt m } } : State).reply m mbOK 0 (imgReply p)

def execFwStage (m : MbId) (x : MpXfer) (tag : CmpPair) (s : State) : Out State := .next (s.fwStage m x tag)

/-- FW_SWITCH: OK, then a warm reset into the named bank (R117). -/
def State.fwSwitch (s : State) (m : MbId) : State :=
  let bank := s.arg m 0 1
  s.command m 0x0206 true [badIf (2 ≤ bank) 0, s.zeroAt m 1 3, (bank = 1 && !s.mp.b1valid, mbSTATE, 0)] fun s =>
    ((s.reply m mbOK).mpReset (bank = 1)).rstBit 4

def execFwSwitch (m : MbId) (s : State) : Out State := .next (s.fwSwitch m)

/-- The set replaces every patch at once: patch RAM and units 0 to 23 (R119). -/
def Mp.patched (x : Mp) (ver : Word) (payload : List Byte) : Mp :=
  { x with patches := some ver, patchRam := payload, patchUnits := Vector.ofFn fun i => Config.patchUnit payload i.val }

/-- PATCH_LOAD (R119). -/
def State.patchLoad (s : State) (m : MbId) (x : MpXfer) (tag : CmpPair) : State :=
  let payload := s.payloadAt m
  s.stageCmd m 0x0207 [6] [] [] x fun p t => t.authImage m p tag fun t =>
    if p.bindver != t.mp.fwver then t.reply m mbDENIED
    else if 65536 < s.img (s.arg m 0 8) 0x14 4 ∨ Config.patchNamesLantern payload then t.reply m mbBADARG
    else ({ t with mp := t.mp.patched p.imgver payload } : State).reply m mbOK 0 (imgReply p)

def execPatchLoad (m : MbId) (x : MpXfer) (tag : CmpPair) (s : State) : Out State := .next (s.patchLoad m x tag)

end Sys2Proof.Machine
end

