-- ==== Sys2Proof/Machine/Service.lean ====
section
/-!
DEFINITION. The gallery commands 0x0301 to 0x0305 (R328 to R330, R348 to R350) and the context and program commands 0x0401 to
0x0407 (R331 to R336).
-/

namespace Sys2Proof.Machine

open Sys2Proof

/-! ### Galleries -/

/-- The gallery of a payload whose first byte names it. -/
def State.argGal (s : State) (m : MbId) (off : Nat) : GalId := Fin.ofNat 16 (s.arg m off 1)

/-- A long command in progress holds the gallery (R318, R112). -/
def State.galHeld (s : State) (g : GalId) : Bool :=
  let x := s.gal g
  x.power.isSome || x.squeeze.isSome || x.gstate == .squeezing
    || s.inCommit g

/-- GAL_SQUEEZE: long; the reply posts when the squeeze ends. -/
def State.galSqueeze (s : State) (m : MbId) : State :=
  let g := s.argGal m 0
  let d := s.arg m 2 2
  s.command m 0x0301 s.operating
    [badIf (s.absentGal (s.arg m 0 1)) 0, s.zeroAt m 1 1, badIf (d = 0) 2, (s.galHeld g, mbBUSY, 0),
      ((s.gal g).gstate != .serving, mbSTATE, 0)] fun s =>
    (s.behind m).squeezeStart g (BitVec.ofNat 16 d) (some m)

def execGalSqueeze (m : MbId) (s : State) : Out State := .next (s.galSqueeze m)

/-- What GAL_RELEASE requires of a gallery (R330). -/
def State.mayRelease (s : State) (g : GalId) : Bool :=
  let x := s.gal g
  (x.gstate == .squeezed || (x.gstate == .fenced && !s.ledger.lastBad.contains g))
    && (seqsOf g).all fun q => bit (s.seq q).cs.csver 63

/-- GAL_RELEASE. -/
def State.galRelease (s : State) (m : MbId) : State :=
  let g := s.argGal m 0
  s.command m 0x0302 s.operating
    [badIf (s.absentGal (s.arg m 0 1)) 0, s.zeroAt m 1 3, (s.galHeld g, mbBUSY, 0),
      (!s.mayRelease g, mbSTATE, (s.gal g).gstate.code)] fun s =>
    (s.releaseGal g).reply m mbOK

def execGalRelease (m : MbId) (s : State) : Out State := .next (s.galRelease m)

/-- GAL_FENCE: the reply counts the items failed FENCED. -/
def State.galFence (s : State) (m : MbId) : State :=
  let g := s.argGal m 0
  let st := (s.gal g).gstate
  s.command m 0x0303 s.operating
    [badIf (s.absentGal (s.arg m 0 1)) 0, s.zeroAt m 1 3, (st == .fenced || st == .off || st == .retained, mbSTATE, 0)] fun s =>
    let n := (seqsOf g).countP fun q => (s.seq q).running.isSome
    (s.fence g).reply m mbOK 0 (leBytes 2 n ++ [0, 0])

def execGalFence (m : MbId) (s : State) : Out State := .next (s.galFence m)

/-- GAL_POWER with a MODE; a MODE above 2 fails in any of its rows. -/
def State.galPower (s : State) (m : MbId) (mode : Nat) (states : GState → Bool) (start : GalId → State → State) : State :=
  let g := s.argGal m 0
  let md := s.arg m 1 1
  if md ≠ mode ∧ md ≤ 2 then s else
  s.command m 0x0304 s.operating
    [badIf (s.absentGal (s.arg m 0 1)) 0, badIf (2 < md) 1, s.zeroAt m 2 2, (s.galHeld g, mbBUSY, 0),
      (!states (s.gal g).gstate, mbSTATE, (s.gal g).gstate.code)] fun s =>
    start g (s.behind m)

/-- Modes OFF and RETAIN: step 1 waits until the gallery has drained. -/
def State.powerDown (m : MbId) (retain : Bool) (g : GalId) (s : State) : State :=
  (s.modGal g fun x => { x with power := some (.drain retain, some m) }).powerAdvance g

/-- Mode ON. -/
def State.powerRaise (m : MbId) (g : GalId) (s : State) : State :=
  (s.modGal g fun x => { x with power := some (.raiseScratch, some m) }).powerOnStart g

def GState.down : GState → Bool | .squeezed | .fenced => true | _ => false
def GState.up : GState → Bool | .off | .retained => true | _ => false

def execGalPowerOff (m : MbId) (s : State) : Out State := .next (s.galPower m 0 GState.down (State.powerDown m false))
def execGalPowerRetain (m : MbId) (s : State) : Out State := .next (s.galPower m 1 GState.down (State.powerDown m true))
def execGalPowerOn (m : MbId) (s : State) : Out State := .next (s.galPower m 2 GState.up (State.powerRaise m))

/-- Contexts homed on a gallery. -/
def State.homedCount (s : State) (g : GalId) : Nat := s.ctxListed.countP fun c => s.ctxHome c = g

/-- GAL_QUERY (R329). -/
def State.galQuery (s : State) (m : MbId) : State :=
  let g := s.argGal m 0
  s.command m 0x0305 true [badIf (s.absentGal (s.arg m 0 1)) 0, s.zeroAt m 1 3] fun s =>
    s.reply m mbOK 0 ([BitVec.ofNat 8 (s.gal g).gstate.code, 0] ++ leBytes 2 (s.homedCount g)
      ++ s.regBytes [.seq (seqId g 0) (.csver false), .gal g .mapver, .gal g .tbud, .gal g .mdtags, .gal g .bankret, .gal g .scrst,
        .gal g (.bankown false)])

def execGalQuery (m : MbId) (s : State) : Out State := .next (s.galQuery m)

/-! ### Contexts -/

/-- A command that reads a context's entry: the read finds the entry's ECC errors (R265). -/
def State.ctxCommand (s : State) (m : MbId) (code : Nat) (c : Half) (f : State → State) : State :=
  if s.taken m code then f (if c = 0xFFFF then s else s.ctxTouch c) else s

/-- The gallery that CTX_OPEN chooses: serving, with the fewest contexts homed, the lowest number on a tie (R332). -/
def State.leastHomed (s : State) : Option GalId :=
  (s.galleries.filter fun g => s.serving g).foldl (fun b g =>
    match b with
    | none => some g
    | some h => if s.homedCount g < s.homedCount h then some g else some h) none

/-- A FREE entry for CTX = 0xFFFF: any of them. -/
def State.freeEntry (s : State) : Option (Half × State) :=
  let used := s.ctxListed
  s.choose (((List.range 0xFFFF).map fun i => BitVec.ofNat 16 i).filter fun c => !used.contains c)

/-- The save area that CTX_OPEN writes. -/
def openImage (spill : Nat) : List Byte :=
  let d : Crcp := {}
  List.replicate 0x48 0 ++ leBytes 4 d.cfg.toNat ++ leBytes 4 d.poly.toNat ++ leBytes 4 d.init.toNat ++ leBytes 4 d.xorout.toNat
    ++ List.replicate 0x20 0 ++ leBytes 8 (spill / 4096) ++ List.replicate 128 0

/-- The entry that CTX_OPEN writes. -/
def openEntry (home tenant save : Nat) : List Byte :=
  [BitVec.ofNat 8 ctxOPEN, 0, BitVec.ofNat 8 home, 0, 0, 0, BitVec.ofNat 8 tenant, 0] ++ leBytes 8 (save / 256) ++ List.replicate 16 0

/-- CTX_OPEN's writes and reply. -/
def State.openCtx (s : State) (m : MbId) (c : Half) (home : GalId) : State :=
  let save := s.arg m 4 8
  let s := (s.store save (openImage (s.arg m 0x0C 8))).releaseOverlap save 256
  let s := s.store (ctxAddr c) (openEntry home.val (s.arg m 2 1) save)
  s.reply m mbOK 0 (leBytes 2 c.toNat ++ [BitVec.ofNat 8 home.val, 0])

/-- CTX_OPEN. -/
def State.ctxOpen (s : State) (m : MbId) (x : MpXfer) : State :=
  let c : Half := BitVec.ofNat 16 (s.arg m 0 2)
  s.ctxCommand m 0x0401 c fun s =>
  let h := s.arg m 3 1
  let save := s.arg m 4 8
  let spill := s.arg m 0x0C 8
  let any := c = 0xFFFF
  let pick (s : State) := if any then s.freeEntry else some (c, s)
  let home := if h = 0xFF then s.leastHomed else some (Fin.ofNat 16 h)
  s.command m 0x0401 s.operating
    ([(any && (pick s).isNone, mbNOMEM, 0), (!any && s.ctxState c != ctxFREE, mbSTATE, 0), badIf (h ≠ 0xFF && s.absentGal h) 3,
      (match home with | none => true | some g => !s.serving g, mbSTATE, 0), badIf (save % 256 ≠ 0) 4]
      ++ s.bufferChecks save 256 4 ++ [badIf (spill % 4096 ≠ 0) 0x0C]
      ++ if spill = 0 then [] else s.bufferChecks spill 1 0x0C) fun s =>
    s.xferDo m x (home.getD 0) true save 256 fun s =>
      match pick s, home with
      | some (c, s), some g => s.openCtx m c g
      | _, _ => s

def execCtxOpen (m : MbId) (x : MpXfer) (s : State) : Out State := .next (s.ctxOpen m x)

/-- A context in progress on no sequencer: its item, prefetched or held, ends FAILED(KILLED). -/
def State.killUnbound (s : State) (c : Half) : State :=
  let mine (it : Item) : Bool := it.ctx = c
  let slots := s.allSeqs.filter fun q => (s.seq q).prefetch.any mine
  let held := s.work.heldItems.filter fun e => mine e.1
  let s := s.each slots fun s q =>
    match (s.seq q).prefetch with
    | none => s
    | some it => (s.modSeq q fun x => { x with prefetch := none }).finishItem it stFAILED 0x08 0 it.ran
  let s := { s with work := { s.work with heldItems := s.work.heldItems.filter fun e => !mine e.1 } }
  s.each held fun s e => s.finishItem e.1 stFAILED 0x08 0 e.1.ran

/-- CTX_CLOSE goes ahead: a bound context is unbound at the next boundary that its sequencer reaches (R404). -/
def State.closeCtx (s : State) (m : MbId) (c : Half) : State :=
  let g := s.ctxHome c
  let s := s.behind m
  let s := { s with mp := { s.mp with closing := s.mp.closing ++ [(c, m)] } }
  match s.boundSeq c with
  | some q => s.modSeq q fun x => { x with unbind := some .close, ticks := true }
  | none => ((s.killUnbound c).freeNow c).squeezeCheck g

/-- Whether CTX_CLOSE's state rule holds (R335). -/
def State.closable (s : State) (c : Half) (force : Bool) : Bool :=
  let st := s.ctxState c
  st == ctxOPEN || st == ctxBROKEN || ((st == ctxBOUND || st == ctxPARKED) && force)

/-- CTX_CLOSE. -/
def State.ctxClose (s : State) (m : MbId) : State :=
  let c : Half := BitVec.ofNat 16 (s.arg m 0 2)
  let flags := s.arg m 2 2
  s.ctxCommand m 0x0402 c fun s =>
  s.command m 0x0402 s.operating
    [badIf (c = 0xFFFF) 0, badIf (2 ≤ flags) 2, (s.mp.closing.any fun e => e.1 == c, mbBUSY, 0),
      (!s.closable c (flags % 2 = 1), mbSTATE, 0)] fun s => s.closeCtx m c

def execCtxClose (m : MbId) (s : State) : Out State := .next (s.ctxClose m)

/-- CTX_QUERY: the 32-byte entry as stored. -/
def State.ctxQuery (s : State) (m : MbId) : State :=
  let c : Half := BitVec.ofNat 16 (s.arg m 0 2)
  s.ctxCommand m 0x0407 c fun s =>
  s.command m 0x0407 true [badIf (c = 0xFFFF) 0, s.zeroAt m 2 2] fun s =>
    s.reply m mbOK 0 (s.mem.readBytes (ctxAddr c) 32)

def execCtxQuery (m : MbId) (s : State) : Out State := .next (s.ctxQuery m)

/-! ### SEG_BIND (R333) -/

/-- Engine-address ranges that hold the runtime area, context slots and program objects of the gallery that an address is in. -/
def State.guarded (s : State) (a : Nat) : List (Nat × Nat) :=
  match placeOf a with
  | .scratch g _ => (s.keptRanges g).map fun r => (scratchAddr g r.1, r.2)
  | _ => []

/-- The gallery of a scratch address. -/
def galAt (a : Nat) : Option GalId := match placeOf a with | .scratch g _ => some g | _ => none

/-- A range that lies wholly inside one program object. -/
def State.inObject (s : State) (a n : Nat) : Bool :=
  s.mp.progs.any fun p => let b := scratchAddr p.gal p.off; decide (b ≤ a) && decide (a + n ≤ b + p.size)

/-- The descriptor checks in their order. -/
def State.bindChecks (s : State) (n : BitVec 3) (home : GalId) (d : Desc) : List Check :=
  let t := Desc.typ d
  let a := Desc.first d
  let len := Desc.extent d + 1
  let cause := sldCheck n d
  [(cause.isSome, mbBADARG, (cause.getD 0).toNat), (Desc.isP d, mbDENIED, 0),
    (decide (1 ≤ t) && decide (t ≤ 3) && galAt a != some home, mbBADARG, 4), (t = 1 && !s.inObject a len, mbDENIED, 0),
    ((t = 2 || t = 3 || t = 6) && (s.guarded a).any (overlaps a len), mbDENIED, 0), ((t = 4 || t = 5) && s.inStaging a len, mbDENIED, 0)]

/-- The descriptor enters the save area, and the resident copy where one exists. -/
def State.writeSeg (s : State) (c : Half) (n : Nat) (d : Desc) : State :=
  let a := s.ctxSave c + 0x80 + 16 * n
  let s := (s.store a (leBytes 16 d.toNat)).releaseOverlap a 16
  if s.ctxFlag c 0 then s.store (s.ctxSlot c + 0x80 + 16 * n) (leBytes 16 d.toNat) else s

/-- SEG_BIND; a failed write breaks the context (R402). -/
def State.segBind (s : State) (m : MbId) (x : MpXfer) : State :=
  let c : Half := BitVec.ofNat 16 (s.arg m 0 2)
  let n := s.arg m 2 1
  let d : Desc := BitVec.ofNat 128 (s.arg m 4 16)
  s.ctxCommand m 0x0403 c fun s =>
  s.command m 0x0403 s.operating
    ([badIf (c = 0xFFFF) 0, (s.mp.closing.any fun e => e.1 == c, mbBUSY, 0), (s.ctxState c != ctxOPEN, mbSTATE, 0), badIf (7 < n) 2,
        s.zeroAt m 3 1]
      ++ s.bindChecks (BitVec.ofNat 3 n) (s.ctxHome c) d) fun s =>
    let s := s.mpAnswered (s.ctxHome c) true (s.ctxSave c + 0x80 + 16 * n) 16 x
    match xferBad x with
    | none => (s.writeSeg c n d).reply m mbOK
    | some code => (s.breakCtx c).reply m mbTIMEOUT code

def execSegBind (m : MbId) (x : MpXfer) (s : State) : Out State := .next (s.segBind m x)

/-! ### Programs (R334) -/

/-- Ranges of a gallery's scratch where a program object may not lie: what it keeps, and banks the MP does not own. -/
def State.noProgram (s : State) (g : GalId) : List (Nat × Nat) :=
  s.keptRanges g ++ (List.finRange 16).filterMap fun b => if (s.gal g).owner[b] = 8 then none else some (b.val * 0x10000, 0x10000)

/-- The object is created: its bytes, its range, and the reply with OFF and a type-1 descriptor of right X. -/
def State.loadProg (s : State) (m : MbId) (id : BitVec 10) (g : GalId) (off size : Nat) : State :=
  let bs := s.mem.readBytes (s.arg m 4 8) size
  let s := s.store (scratchAddr g off) bs
  let p : Prog := { id := id, gal := g, off := off, size := size }
  let s := { s with mp := { s.mp with progs := s.mp.progs ++ [p] } }
  s.reply m mbOK 0 (leBytes 4 off ++ leBytes 16 (mkDesc (scratchAddr g off) (size - 1) 1 4).toNat)

/-- PROG_LOAD. -/
def State.progLoad (s : State) (m : MbId) (x : MpXfer) : State :=
  let id := s.arg m 0 2
  let src := s.arg m 4 8
  let size := s.arg m 0x0C 4
  let g := s.argGal m 2
  let places := placesFor (s.noProgram g) size 256
  s.command m 0x0404 s.operating
    ([badIf (1023 < id) 0, (s.mp.progs.any fun p => p.id.toNat = id, mbSTATE, 0), badIf (s.absentGal (s.arg m 2 1)) 2,
      (s.galHeld g, mbBUSY, 0), (!s.logicOn g, mbSTATE, 0), s.zeroAt m 3 1] ++ s.bufferChecks src size 4
      ++ [badIf (size % 4 ≠ 0 || size = 0 || decide (65536 < size)) 0x0C, s.zeroAt m 0x10 4, (places.isEmpty, mbNOMEM, 0)]) fun s =>
    s.xferDo m x g false src size fun s =>
      match s.choose places with
      | some (off, s) => s.loadProg m (BitVec.ofNat 10 id) g off size
      | none => s

def execProgLoad (m : MbId) (x : MpXfer) (s : State) : Out State := .next (s.progLoad m x)

/-- S0 of a context: live where it is bound, else in its image. -/
def State.ctxS0 (s : State) (c : Half) : Desc :=
  match s.boundSeq c with
  | some q => (s.regs q).s[0]
  | none => imgSeg (s.mem.readBytes (s.ctxImageAddr c) 256) 0

/-- A context that is not FREE has an S0 inside the object. -/
def State.progUsed (s : State) (p : Prog) : Bool :=
  let b := scratchAddr p.gal p.off
  s.ctxListed.any fun c => let d := s.ctxS0 c; Desc.typ d != 0 && decide (b ≤ Desc.first d) && decide (Desc.first d < b + p.size)

/-- PROG_UNLOAD. -/
def State.progUnload (s : State) (m : MbId) : State :=
  let id := s.arg m 0 2
  let p := s.mp.progs.find? fun p => p.id.toNat = id
  s.command m 0x0405 s.operating
    [badIf (1023 < id) 0, s.zeroAt m 2 2, (p.isNone, mbSTATE, 0), (p.any s.progUsed, mbSTATE, 0)] fun s =>
    ({ s with mp := { s.mp with progs := s.mp.progs.filter fun p => p.id.toNat != id } } : State).reply m mbOK

def execProgUnload (m : MbId) (s : State) : Out State := .next (s.progUnload m)

/-! ### WORK_CFG (R336) -/

/-- WORK_CFG: effective from each gallery's next tick; the reply gives the previous values. -/
def State.workCfg (s : State) (m : MbId) : State :=
  let q := s.arg m 0 2
  let flags := s.arg m 2 2
  s.command m 0x0406 true [badIf (q = 0) 0, badIf (2 ≤ flags) 2] fun s =>
    let old := leBytes 2 s.mp.quantum.toNat ++ leBytes 2 (if s.mp.early then 1 else 0)
    ({ s with mp := { s.mp with quantum := BitVec.ofNat 16 q, early := flags % 2 = 1 } } : State).reply m mbOK 0 old

def execWorkCfg (m : MbId) (s : State) : Out State := .next (s.workCfg m)

end Sys2Proof.Machine
end

