-- ==== Sys2Proof/Machine/Setup.lean ====
section
/-!
DEFINITION. The plant commands 0x0501 to 0x0504 (R337), the event and timer commands 0x0601 to 0x0604 (R338), TRACE_CFG (R339).
-/

namespace Sys2Proof.Machine

open Sys2Proof

/-! ### Plant -/

/-- BUDGET_SET: WEIGHT of one gallery, or of every present one. -/
def State.budgetSet (s : State) (m : MbId) : State :=
  let n := s.arg m 0 1
  let w : Byte := BitVec.ofNat 8 (s.arg m 1 1)
  s.command m 0x0501 true [badIf (n ≠ 0xFF && s.absentGal n) 0, s.zeroAt m 2 2] fun s =>
    (s.each (s.galleries.filter fun g => n = 0xFF || g.val = n) fun s g =>
      if s.logicOn g then s.modGal g fun x => { x with weight := w } else s).reply m mbOK

def execBudgetSet (m : MbId) (s : State) : Out State := .next (s.budgetSet m)

/-- A write that waits for the next reference tick boundary; the reply posts there. -/
def State.atBoundary (s : State) (w : BoundaryWrite) : State := { s with plant := { s.plant with writes := s.plant.writes ++ [w] } }

/-- PLANT_CFG. -/
def State.plantCfg (s : State) (m : MbId) : State :=
  let mask := s.arg m 0 2
  s.command m 0x0502 true [badIf (0x4000 ≤ mask) 0, s.zeroAt m 2 2] fun s =>
    s.atBoundary (.plant m (BitVec.ofNat 16 mask) ((List.range 14).map fun i => BitVec.ofNat 32 (s.arg m (4 + 4 * i) 4)))

def execPlantCfg (m : MbId) (s : State) : Out State := .next (s.plantCfg m)

/-- HOLDUP_CFG: EN does not change in SERVICE. -/
def State.holdupCfg (s : State) (m : MbId) : State :=
  let v : Word := BitVec.ofNat 32 (s.arg m 0 4)
  s.command m 0x0503 true [(s.eng.state == .service && bit v 31 != s.pow.holdEn, mbSTATE, 0)] fun s => s.atBoundary (.hold m v)

def execHoldupCfg (m : MbId) (s : State) : Out State := .next (s.holdupCfg m)

/-- TICK_CFG: each value is judged by its width here, together at the boundary (R41, R46). -/
def State.tickCfg (s : State) (m : MbId) : State :=
  let period := s.arg m 0 4
  let mhz := s.arg m 4 2
  let guard := s.arg m 6 2
  s.command m 0x0504 true [badIf (2 ^ 21 ≤ period) 0, badIf (2 ^ 11 ≤ mhz) 4, badIf (guard < 256 || 4095 < guard) 6] fun s =>
    let s := { s with plant := { s.plant with
      pendCfg := some (BitVec.ofNat 32 (mhz * 2 ^ 21 + period)), pendGuard := some (BitVec.ofNat 12 guard) } }
    s.atBoundary (.tick m (BitVec.ofNat 21 period) (BitVec.ofNat 11 mhz) (BitVec.ofNat 12 guard))

def execTickCfg (m : MbId) (s : State) : Out State := .next (s.tickCfg m)

/-! ### Events -/

/-- EVT_SUB: the previous CHSUB; DENIED where R294 refuses, with SUBERR. -/
def State.evtSub (s : State) (m : MbId) : State :=
  let ch : Byte := BitVec.ofNat 8 (s.arg m 0 1)
  let v : Word := BitVec.ofNat 32 (s.arg m 4 4)
  s.command m 0x0601 true [s.zeroAt m 1 3] fun s =>
    if s.chsubRefused ch v then (s.chsubWrite ch v).reply m mbDENIED
    else (s.chsubWrite ch v).reply m mbOK 0 (leBytes 4 (s.chsub ch).toNat)

def execEvtSub (m : MbId) (s : State) : Out State := .next (s.evtSub m)

/-- LUT_PROG: LUTSEL and LUTCTL in one fc, with CLRFORCED also LUTST.FORCED; STATE, with LUTERR, where R304 refuses. -/
def State.lutProg (s : State) (m : MbId) : State :=
  let j : Fin 64 := Fin.ofNat 64 (s.arg m 0 1)
  let flags := s.arg m 1 1
  let ctl : Word := BitVec.ofNat 32 (s.arg m 8 4)
  s.command m 0x0602 true
    [badIf (63 < s.arg m 0 1) 0, badIf (2 ≤ flags) 1, s.zeroAt m 2 2] fun s =>
    if s.ev.cells[j].ctlRefused ctl then (s.lutctlWrite j ctl).reply m mbSTATE else
    let s := (s.lutselWrite j (BitVec.ofNat 32 (s.arg m 4 4))).lutctlWrite j ctl
    let s := if flags % 2 = 1 then s.clearForced j else s
    s.reply m mbOK 0 (leBytes 4 (s.ev.cells[j].lutst).toNat)

def execLutProg (m : MbId) (s : State) : Out State := .next (s.lutProg m)

/-! ### Timers -/

/-- The writes of TIMER_CFG in their order: COUNT, CMP, INTV, CTL. -/
def State.timerWrites (s : State) (m : MbId) (g : GalId) (t : Fin 8) : State :=
  let flags := s.arg m 2 2
  let w (off : Nat) : Word := BitVec.ofNat 32 (s.arg m off 4)
  let s := if flags.testBit 0 then (s.timerCount g t true (w 0x0C)).timerCount g t false (w 0x08) else s
  let s := if flags.testBit 1 then (s.timerCmp g t true (w 0x14)).timerCmp g t false (w 0x10) else s
  let s := if flags.testBit 2 then s.modTimer g t fun x => { x with intv := w 0x18 } else s
  s.timerCtl g t (w 4)

/-- TIMER_CFG. -/
def State.timerCfg (s : State) (m : MbId) : State :=
  let g := s.argGal m 0
  let t : Fin 8 := Fin.ofNat 8 (s.arg m 1 1)
  let flags := s.arg m 2 2
  let auto := bit (BitVec.ofNat 32 (s.arg m 4 4)) 29
  s.command m 0x0603 true
    [badIf (s.absentGal (s.arg m 0 1)) 0, badIf (7 < s.arg m 1 1) 1, badIf (7 < flags) 2,
      badIf (flags.testBit 0 && s.arg m 0x0E 2 != 0) 8, badIf (flags.testBit 1 && s.arg m 0x16 2 != 0) 0x10,
      ((flags.testBit 0 && (s.timer g t).en) || (auto && s.eng.state == .service) || !s.timerOn g, mbSTATE, 0)] fun s =>
    let s := s.timerWrites m g t
    s.reply m mbOK 0 (leBytes 4 (s.timer g t).stat.toNat ++ leBytes 8 (s.timer g t).count.toNat)

def execTimerCfg (m : MbId) (s : State) : Out State := .next (s.timerCfg m)

/-! ### Phases -/

/-- Why the PHASE of gallery slot g is refused. -/
def State.phaseBad (s : State) (m : MbId) (mode : Nat) (g : Nat) : Bool :=
  let p := s.arg m (4 + 4 * g) 4
  decide (p ≠ 0) && (mode = 0 || s.absentGal g || decide (s.plant.period.toNat ≤ p))

/-- STAGGER: default or explicit phases, from the next reference tick boundary. -/
def State.stagger (s : State) (m : MbId) : State :=
  let mode := s.arg m 0 1
  s.command m 0x0604 true
    ([badIf (1 < mode) 0, s.zeroAt m 1 3] ++ (List.range 16).map fun g => badIf (s.phaseBad m mode g) (4 + 4 * g)) fun s =>
    s.atBoundary (.stagger (if mode = 0 then [] else (List.range 16).map fun g => BitVec.ofNat 21 (s.arg m (4 + 4 * g) 4)) m)

def execStagger (m : MbId) (s : State) : Out State := .next (s.stagger m)

/-! ### Trace -/

/-- TRACE_CFG: TRSEQ0 to TRSEQ3 and TRCTL in one fc; a reserved bit of CTL is refused. -/
def State.traceCfg (s : State) (m : MbId) : State :=
  let ctl : Word := BitVec.ofNat 32 (s.arg m 16 4)
  s.command m 0x0703 true [badIf ((ctl &&& ~~~(0x80FF003F : Word)) != 0) 0x10] fun s =>
    ({ s with trace := { s.trace with ctl := ctl, seqs := BitVec.ofNat 128 (s.arg m 0 16) } } : State).reply m mbOK

def execTraceCfg (m : MbId) (s : State) : Out State := .next (s.traceCfg m)

end Sys2Proof.Machine
end

