-- ==== Sys2Proof/Machine/Recorder.lean ====
section
/-!
DEFINITION. Records as stored (R384), commits and their credit (R386), BB_READ and BB_MARK (R339), trace packets as they leave
(R383).
-/

namespace Sys2Proof.Machine

open Sys2Proof

/-! ### Records -/

/-- The first 60 bytes of a record, unused payload bytes 0. -/
def Rec.head (r : Rec) : List Byte :=
  leBytes 4 r.num.toNat ++ leBytes 6 r.tick.toNat ++ leBytes 2 r.ofs.toNat ++ leBytes 2 r.src.toNat ++ leBytes 2 r.code.toNat
    ++ (r.payload ++ List.replicate 44 0).take 44

/-- The 64 bytes, with CHK (R17). -/
def Rec.bytes (r : Rec) : List Byte := r.head ++ leBytes 4 (crcOf crc32c r.head).toNat

/-- Record number a is b or a later one, modulo 2^32. -/
def notBefore (a b : Word) : Bool := decide ((a - b).toNat < 2 ^ 31)

/-- A ring takes a record in its slot, NUM mod 4,096, in ascending order of numbers. -/
def insertRec (r : Rec) : List Rec → List Rec
  | [] => [r]
  | x :: xs => if notBefore r.num x.num then x :: insertRec r xs else r :: x :: xs

def ringPut (l : List Rec) (r : Rec) : List Rec := insertRec r (l.filter fun x => x.num.toNat % 4096 != r.num.toNat % 4096)

/-! ### Commits (R386, R355) -/

/-- Last light commits every uncommitted record without credit. -/
def State.lastLight (s : State) : Bool := s.pd.active && !s.pd.closed

/-- The record that the next commit takes: the newest uncommitted one that a request or last light reaches. -/
def State.nextCommit (s : State) : Option Rec :=
  (s.recd.staging.filter fun r =>
    !r.committed && (s.lastLight || (match s.recd.request with | some n => notBefore n r.num | none => false))).getLast?

/-- A record goes into the non-volatile ring. -/
def Recorder.commit (r : Recorder) (x : Rec) : Recorder :=
  { r with
    staging := r.staging.map fun y => if y.num = x.num then { y with committed := true } else y
    newCom := if r.nv.isEmpty || notBefore x.num r.newCom then x.num else r.newCom
    nv := ringPut r.nv { x with committed := true } }

/-- RECORD_COMMIT. -/
def State.recordCommit (s : State) : State :=
  let stop : State := { s with recd := { s.recd with request := none } }
  match s.nextCommit with
  | none => stop
  | some x =>
    if s.lastLight then
      { s with recd := s.recd.commit x, pd := { s.pd with committed := s.pd.committed + 1 } }
    else if s.recd.credit = 0 then stop
    else { s with recd := { s.recd.commit x with credit := s.recd.credit - 1 } }

def execRecordCommit (s : State) : Out State := .next s.recordCommit

/-- COMMIT_CREDIT_RISE: up to BBCFG.BURST. -/
def State.creditRise (s : State) : State :=
  if s.recd.credit.toNat < s.recd.burst.toNat then { s with recd := { s.recd with credit := s.recd.credit + 1 } } else s

def execCommitCreditRise (s : State) : Out State := .next s.creditRise

/-! ### BB_READ and BB_MARK (R339, R388) -/

/-- The records that BB_READ copies: from FIRST, or from the oldest held, in ascending number. -/
def readRing (ring : List Rec) (first : Word) (n : Nat) : List Rec := (ring.filter fun r => notBefore r.num first).take n

/-- BB_READ's writes and reply; PARTIAL where FIRST is older than the oldest record held. -/
def State.readBox (s : State) (m : MbId) : State :=
  let ring := if s.arg m 0 1 = 0 then s.recd.staging else s.recd.nv
  let first : Word := BitVec.ofNat 32 (s.arg m 4 4)
  let l := readRing ring first (s.arg m 2 2)
  let oldest : Word := (ring.head?.map fun r => r.num).getD 0
  let newest : Word := (ring.getLast?.map fun r => r.num).getD 0
  let s := (s.store (s.arg m 8 8) (l.flatMap Rec.bytes)).releaseOverlap (s.arg m 8 8) (64 * l.length)
  s.reply m (if ring.isEmpty || notBefore first oldest then mbOK else mbPARTIAL) 0
    (leBytes 2 l.length ++ [0, 0] ++ leBytes 4 oldest.toNat ++ leBytes 4 newest.toNat)

/-- BB_READ. -/
def State.bbRead (s : State) (m : MbId) (x : MpXfer) : State :=
  let n := s.arg m 2 2
  s.command m 0x0701 true
    ([badIf (1 < s.arg m 0 1) 0, s.zeroAt m 1 1, badIf (n = 0 || decide (4096 < n)) 2] ++ s.bufferChecks (s.arg m 8 8) (64 * n) 8)
    (fun s => s.xferDo m x 0 true (s.arg m 8 8) (64 * n) fun s => s.readBox m) true

def execBbRead (m : MbId) (x : MpXfer) (s : State) : Out State := .next (s.bbRead m x)

/-- BB_MARK: with COMMIT a commit request where there is credit, else PARTIAL. -/
def State.bbMark (s : State) (m : MbId) : State :=
  let commit := s.arg m 0 1 % 2 = 1
  s.command m 0x0702 true [badIf (2 ≤ s.arg m 0 1) 0, s.zeroAt m 1 3] fun s =>
    let num := s.recd.next
    let s := s.record 0xF0 (recSrc 0xA 0 0xFF) .staged (s.mb.bytes.readBytes (m.val * 256 + 20) 44)
    let short := decide commit && s.recd.credit = 0
    let s := if decide commit && !short then { s with recd := { s.recd with request := some num } } else s
    s.reply m (if short then mbPARTIAL else mbOK) 0 (leBytes 4 num.toNat)

def execBbMark (m : MbId) (s : State) : Out State := .next (s.bbMark m)

/-! ### Trace -/

/-- TRACE_PACKET: the oldest packet leaves. -/
def State.packetOut (s : State) : State :=
  match s.trace.fifo with
  | [] => s
  | p :: rest => { s with trace := { s.trace with fifo := rest, last := some p } }

def execTracePacket (s : State) : Out State := .next s.packetOut

end Sys2Proof.Machine
end

