-- ==== Sys2Proof/Machine/Lantern.lean ====
section
/-!
DEFINITION. Lantern: attachment (R359, R360), halt, resume and step (R364 to R370), breakpoints (R371), registers through the
debug master (R373 to R375), memory spaces (R362), the register image (R363) and rope configuration (R376).
-/

namespace Sys2Proof.Machine

open Sys2Proof

/-! ### Attachment -/

/-- A DBG_ATTACH of one PHASE; a PHASE above 1 fails in either row. -/
def State.attachCmd (s : State) (m : MbId) (phase : Nat) (more : List Check) (body : State → State) : State :=
  let p := s.arg m 0 1
  if p ≠ phase ∧ p ≤ 1 then s else
  s.command m 0x0801 true
    ([badIf (1 < p) 0, s.zeroAt m 1 3, badIf (p = 0 && s.arg m 4 32 != 0) 4,
      (s.aon.lock || s.aon.slot == 0xFF || s.aon.att, mbDENIED, 0)] ++ more) body

/-- PHASE 0: the counter advances, and the nonce may be used once. -/
def State.challenge (s : State) (m : MbId) : State :=
  let n := Config.nonceOf s.aon.nonceCtr
  ({ s with aon := { s.aon with nonceCtr := s.aon.nonceCtr + 1, nonce := some n } } : State).reply m mbOK 0 (leBytes 16 n.toNat)

def execDbgAttachChallenge (m : MbId) (s : State) : Out State := .next (s.attachCmd m 0 [] fun s => s.challenge m)

/-- PHASE 1: the nonce is used up; the comparator's answer attaches Lantern or is recorded. -/
def State.attachResponse (s : State) (m : MbId) (tag : CmpPair) : State :=
  let s := { s with aon := { s.aon with nonce := none } }
  match s.authenticate tag with
  | (true, s) =>
    let s := { s with aon := { s.aon with att := true } }
    (s.record 0x50 (recSrc 9 0 0xFF) .staged []).reply m mbOK
  | (false, s) =>
    (s.record 0x51 (recSrc 9 0 0xFF) .important [ofB 8 tag.eq ||| (ofB 8 tag.eqn <<< 1)]).reply m mbAUTHFAIL

def execDbgAttachResponse (m : MbId) (tag : CmpPair) (s : State) : Out State :=
  .next (s.attachCmd m 1 [(s.aon.nonce.isNone, mbSTATE, 0)] fun s => s.attachResponse m tag)

/-- The breakpoint units at reset values. -/
def Mp.noBreaks (x : Mp) : Mp :=
  { x with bpAddrL := Vector.replicate 8 0, bpAddrH := Vector.replicate 8 0, bpCtl := Vector.replicate 8 0x0000FFFF }

/-- DBG_DETACH (R370). -/
def State.detach (s : State) (m : MbId) : State :=
  let s := s.each s.allSeqs fun s q => s.resumeSeq q
  let s := s.each s.allSeqs fun s q => s.modSeq q fun x => { x with dbg := { x.dbg with brkhalt := false, ubrken := false } }
  ({ s with mp := s.mp.noBreaks, aon := { s.aon with att := false } } : State).reply m mbOK

def execDbgDetach (m : MbId) (s : State) : Out State := .next (s.command m 0x0802 true [] fun s => s.detach m)

/-! ### Common checks -/

/-- A Lantern command: DENIED unless attached, then its own checks (R359). -/
def State.lantern (s : State) (m : MbId) (code : Nat) (checks : List Check) (body : State → State) : State :=
  s.command m code true ((!s.aon.att, mbDENIED, 0) :: checks) body

/-- A gallery whose logic domain is off: STATE with its GSTATE (R361). -/
def State.galDown (s : State) (g : GalId) : Check := (!s.logicOn g, mbSTATE, (s.gal g).gstate.code)

/-- The sequencers of a MASK field. -/
def State.maskSeqs (s : State) (m : MbId) : List SeqId := (List.finRange 128).filter fun q => (s.arg m 0 16).testBit q.val

/-- Checks of a MASK field: absent sequencers, and galleries whose logic is off. -/
def State.maskChecks (s : State) (m : MbId) : List Check :=
  badIf ((s.maskSeqs m).any fun q => !s.present (galOf q)) 0 :: (s.maskSeqs m).map fun q => s.galDown (galOf q)

/-- A mask of the sequencers with a property, 16 bytes. -/
def State.seqMask (s : State) (p : Seq → Bool) : List Byte :=
  leBytes 16 ((List.finRange 128).foldl (fun w q => if p (s.seq q) then w + 2 ^ q.val else w) 0)

/-! ### Halt, resume, step -/

/-- DBG_HALT: the requests, and at once which sequencers are halted or deferred. -/
def State.dbgHalt (s : State) (m : MbId) : State :=
  s.lantern m 0x0803 (s.maskChecks m) fun s =>
    let s := s.each (s.maskSeqs m) State.haltRequest
    s.reply m mbOK 0 (s.seqMask (fun x => x.dbg.halted) ++ s.seqMask fun x => x.dbg.defer)

def execDbgHalt (m : MbId) (s : State) : Out State := .next (s.dbgHalt m)

/-- DBG_RESUME. -/
def State.dbgResume (s : State) (m : MbId) : State :=
  s.lantern m 0x0804 (s.maskChecks m) fun s => (s.each (s.maskSeqs m) State.resumeSeq).reply m mbOK

def execDbgResume (m : MbId) (s : State) : Out State := .next (s.dbgResume m)

/-- The sequencer that GAL and SEQ name. -/
def State.argSeq (s : State) (m : MbId) (off : Nat) : SeqId := seqId (s.argGal m off) (Fin.ofNat 8 (s.arg m (off + 1) 1))

/-- Checks of GAL and SEQ. -/
def State.seqChecks (s : State) (m : MbId) (off : Nat) : List Check :=
  [badIf (s.absentGal (s.arg m off 1)) off, badIf (7 < s.arg m (off + 1) 1) (off + 1)]

/-- A halted sequencer runs a number of steps; the reply posts when it halts again. -/
def State.startStep (s : State) (m : MbId) (q : SeqId) (micro : Bool) (n : Nat) : State :=
  let s := s.modSeq q fun x => { x with
    dbg := { x.dbg with halted := false, steps := n, stepUnit := micro } }
  { s with mp := { s.mp with stepping := s.mp.stepping ++ [(q, m, n)] } }

/-- DBG_STEP of one UNIT; a UNIT above 1 fails in either row. -/
def State.dbgStep (s : State) (m : MbId) (micro : Bool) : State :=
  let u := s.arg m 2 1
  let n := s.arg m 4 2
  let q := s.argSeq m 0
  if u ≠ (if micro then 1 else 0) ∧ u ≤ 1 then s else
  s.lantern m 0x0805
    (s.seqChecks m 0 ++ [badIf (1 < u) 2, s.zeroAt m 3 1, badIf (n = 0 || decide (256 < n)) 4, s.zeroAt m 6 2, s.galDown (galOf q),
      (!(s.seq q).dbg.halted, mbSTATE, 0)]) fun s => s.startStep m q micro n

def execDbgStepInstruction (m : MbId) (s : State) : Out State := .next (s.dbgStep m false)
def execDbgStepMicroword (m : MbId) (s : State) : Out State := .next (s.dbgStep m true)

/-- STEP_TIMEOUT (R367): TIMEOUT; the halt request stands. -/
def State.stepTimeout (s : State) (q : SeqId) : State :=
  match s.mp.stepping.find? fun e => e.1 = q with
  | none => s
  | some (_, m, _) =>
    let s := { s with mp := { s.mp with stepping := s.mp.stepping.filter fun e => e.1 ≠ q } }
    (s.modSeq q fun x => ({ x with dbg := { x.dbg with steps := 0 } } : Seq).requestHalt 6).reply m mbTIMEOUT

def execStepTimeout (q : SeqId) (s : State) : Out State := .next (s.stepTimeout q)

/-! ### Breakpoints -/

/-- The three registers of a unit are written together; OP 1 enables it. -/
def Mp.setBreak (x : Mp) (u : Fin 8) (on : Bool) (gmask ctx : Half) (a : Nat) : Mp :=
  { x with
    bpAddrL := x.bpAddrL.set u (BitVec.ofNat 32 a &&& 0xFFFFFFFC)
    bpAddrH := x.bpAddrH.set u (BitVec.ofNat 32 (a / 2 ^ 32 % 2 ^ 20) ||| (ofB 32 on <<< 31))
    bpCtl := x.bpCtl.set u ((gmask.setWidth 32 <<< 16) ||| ctx.setWidth 32) }

/-- DBG_BREAK of one OP; an OP above 1 fails in either row. -/
def State.dbgBreak (s : State) (m : MbId) (on : Bool) : State :=
  let u := s.arg m 0 1
  let op := s.arg m 1 1
  let a := s.arg m 8 8
  if op ≠ (if on then 1 else 0) ∧ op ≤ 1 then s else
  s.lantern m 0x0806
    [badIf (u < 24 || 31 < u) 0, badIf (1 < op) 1, badIf (s.absentMask (s.arg m 2 2)) 2, s.zeroAt m 6 2,
      badIf (a % 4 ≠ 0 || regionOf a ≠ 2) 8] fun s =>
    let mp := s.mp.setBreak (Fin.ofNat 8 (u - 24)) on (BitVec.ofNat 16 (s.arg m 2 2)) (BitVec.ofNat 16 (s.arg m 4 2)) a
    ({ s with mp := mp } : State).reply m mbOK

def execDbgBreakSet (m : MbId) (s : State) : Out State := .next (s.dbgBreak m true)
def execDbgBreakClear (m : MbId) (s : State) : Out State := .next (s.dbgBreak m false)

/-! ### PEEK and POKE (R373 to R375) -/

/-- A word as PEEK gives it: reserved space reads 0. -/
def State.peekWord (s : State) (a : Nat) : Word :=
  match s.spot true a with
  | .reg r => s.regValue r
  | _ => 0

/-- An address that PEEK and POKE refuse: unaligned, outside the map, or in the mailbox or doorbell ranges. -/
def pokeBad (a n : Nat) : Bool := a % 4 ≠ 0 || decide (a < 0x5000) || decide (0x200000 < a + 4 * n)

/-- Galleries whose logic is off among the windows that a range of words reaches. -/
def State.windowsDown (s : State) (a n : Nat) : List Check :=
  ((List.range n).filter fun i => s.spot true (a + 4 * i) = .down).map fun i =>
    s.galDown (Fin.ofNat 16 ((a + 4 * i - 0x40000) / 0x10000))

/-- DBG_PEEK. -/
def State.dbgPeek (s : State) (m : MbId) : State :=
  let a := s.arg m 0 4
  let n := s.arg m 4 1
  s.lantern m 0x0807
    ([badIf (pokeBad a n) 0, badIf (n = 0 || decide (28 < n)) 4, s.zeroAt m 5 3] ++ s.windowsDown a n) fun s =>
    s.reply m mbOK 0 ((List.range n).flatMap fun i => leBytes 4 (s.peekWord (a + 4 * i)).toNat)

def execDbgPeek (m : MbId) (s : State) : Out State := .next (s.dbgPeek m)

/-- The W1C and WO bits of a gallery register. -/
def GReg.oneBits : GReg → Word
  | .scrst => 0x00000001
  | .mderr => 0x0000007F
  | .tstat _ => 0x00000075
  | _ => 0

/-- The W1C and WO bits of a sequencer register. -/
def QReg.oneBits : QReg → Word
  | .mcfault => 0x40000000
  | .irqset => 0xFFFFFFFF
  | .evslot _ => 0x00008000
  | .dbgctl => 0x00000003
  | .dbgst => 0x20000000
  | _ => 0

/-- The W1C and WO bits of a register: POKE writes 0 to those it does not name. -/
def Reg.oneBits : Reg → Word
  | .hosterr => 0x00000007
  | .hirq => 0x000003FF
  | .tickctl => 0x00010000
  | .holdst => 0x01000000
  | .ledgst => 0x00000070
  | .ledgctl => 0x00000001
  | .evincfg _ => 0x40000000
  | .evocfg _ => 0x00000008
  | .lutst _ => 0x40000000
  | .evchovr _ => 0xFFFFFFFF
  | .evstat => 0x0000001E
  | .ctxst => 0x00800000
  | .mpbank => 0x00000008
  | .ewdkick => 0xFFFFFFFF
  | .xtst => 0x0000FF00
  | .pdcfg => 0x80000000
  | .plwst => 0x40000000
  | .rstcause => 0x0000001F
  | .gal _ r => r.oneBits
  | .seq _ r => r.oneBits
  | _ => 0

/-- The RWO bits of a register, which the debug master cannot change. -/
def Reg.ownerBits : Reg → Word
  | .gal _ (.bankown _) => 0xFFFFFFFF
  | .gal _ .bankret => 0x0000FFFF
  | _ => 0

/-- DBG_POKE's write and reply. -/
def State.pokeReg (s : State) (m : MbId) (a : Nat) (v mask : Word) : State :=
  match s.spot true a with
  | .reg r =>
    let old := s.regValue r
    let w := (v &&& mask) ||| (old &&& ~~~mask &&& ~~~r.oneBits)
    let refused := ((w ^^^ old) &&& r.ownerBits) != 0
    let s := s.regWrite r w .lantern
    if refused then s.reply m mbDENIED else s.reply m mbOK 0 (leBytes 4 (s.regValue r).toNat)
  | _ => s.reply m mbOK 0 [0, 0, 0, 0]

/-- DBG_POKE. -/
def State.dbgPoke (s : State) (m : MbId) : State :=
  let a := s.arg m 0 4
  s.lantern m 0x0808 (badIf (pokeBad a 1) 0 :: s.windowsDown a 1) fun s =>
    s.pokeReg m a (BitVec.ofNat 32 (s.arg m 4 4)) (BitVec.ofNat 32 (s.arg m 8 4))

def execDbgPoke (m : MbId) (s : State) : Out State := .next (s.dbgPoke m)

/-! ### Memory spaces (R362) -/

/-- Whether bytes from an engine address up lie in one range of R28 that the configuration has. -/
def State.inSpace0 (s : State) (a n : Nat) : Bool :=
  match placeOf a, placeOf (a + n - 1) with
  | .scratch g _, .scratch h _ => g = h && s.present g
  | .ctx _, .ctx _ => true
  | _, _ => false

/-- The gallery whose logic domain an access must find on. -/
def State.spaceGal (s : State) (m : MbId) : Option GalId :=
  match s.arg m 0 1 with
  | 0 => galAt (s.arg m 4 8)
  | 1 => none
  | _ => some (s.argGal m 1)

/-- Whether ADDR and COUNT fit the space. -/
def State.spaceFits (s : State) (m : MbId) : Bool :=
  let n := s.arg m 3 1
  let a := s.arg m 4 8
  match s.arg m 0 1 with
  | 0 => s.inSpace0 a n
  | 1 => inBuffer a n
  | 2 => decide (a + n / 24 ≤ 4096)
  | 3 => decide (a + n / 2 ≤ 0x400)
  | _ => decide (a + n ≤ 64)

/-- The checks that reads and writes share. -/
def State.spaceChecks (s : State) (m : MbId) : List Check :=
  let sp := s.arg m 0 1
  let n := s.arg m 3 1
  [badIf (4 < sp) 0, badIf (2 ≤ sp && s.absentGal (s.arg m 1 1)) 1, badIf (2 ≤ sp && decide (7 < s.arg m 2 1)) 2,
    badIf (n = 0 || decide (96 < n) || (sp = 2 && n % 24 != 0) || (sp = 3 && n % 2 != 0)) 3, badIf (!s.spaceFits m) 4]
    ++ (s.spaceGal m).toList.map s.galDown

/-- What a read through the debug master finds in the ECC of scratch and the table. -/
def State.spaceTouch (s : State) (a n : Nat) : State :=
  match placeOf a with
  | .scratch g off => (s.wakeBanks g off n).eccRead g a n
  | .ctx off => s.each ((List.range ((off + n - 1) / 32 - off / 32 + 1)).map fun i => BitVec.ofNat 16 (off / 32 + i)) State.ctxTouch
  | .nowhere => s

/-- The bytes of a space. -/
def State.spaceBytes (s : State) (m : MbId) : List Byte :=
  let n := s.arg m 3 1
  let a := s.arg m 4 8
  let x := s.seq (s.argSeq m 1)
  match s.arg m 0 1 with
  | 2 => (List.range (n / 24)).flatMap fun i => leBytes 24 (x.store.word (a + i)).toNat
  | 3 => (List.range (n / 2)).flatMap fun i => leBytes 2 (x.store.entry (a + i)).toNat
  | 4 => (List.range n).map fun i => x.ledge.toList.getD (a + i) 0
  | _ => s.mem.readBytes a n

/-- DBG_READMEM. -/
def State.dbgReadmem (s : State) (m : MbId) (x : MpXfer) : State :=
  s.lantern m 0x0809 (s.spaceChecks m) fun s =>
    let go (s : State) : State := s.reply m mbOK 0 (s.spaceBytes m)
    match s.arg m 0 1 with
    | 0 => let s := s.spaceTouch (s.arg m 4 8) (s.arg m 3 1); go s
    | 1 => s.xferDo m x 0 false (s.arg m 4 8) (s.arg m 3 1) go
    | _ => go s

def execDbgReadmem (m : MbId) (x : MpXfer) (s : State) : Out State := .next (s.dbgReadmem m x)

/-- A number from payload bytes of a written word or entry. -/
def State.dataAt (s : State) (m : MbId) (i n : Nat) : Nat := s.arg m (12 + i) n

/-- The write of a space; a control store or map written so loses its version (R113). -/
def State.spaceWrite (s : State) (m : MbId) : State :=
  let n := s.arg m 3 1
  let a := s.arg m 4 8
  let q := s.argSeq m 1
  let unver (s : State) : State := s.modSeq q fun x => { x with cs := { x.cs with csver := 0 } }
  match s.arg m 0 1 with
  | 2 => unver (s.each (List.range (n / 24)) fun s i =>
      s.modSeq q fun x => { x with store := x.store.setWord (a + i) (BitVec.ofNat 192 (s.dataAt m (24 * i) 24)) })
  | 3 => unver (s.each (List.range (n / 2)) fun s i =>
      s.modSeq q fun x => { x with store := x.store.setEntry (a + i) (BitVec.ofNat 12 (s.dataAt m (2 * i) 2)) })
  | 4 => s.each (List.range n) fun s i =>
      s.modSeq q fun x => { x with ledge := x.ledge.setIfInBounds (a + i) (BitVec.ofNat 8 (s.dataAt m i 1)) }
  | 1 => (s.store a (s.mb.bytes.readBytes (m.val * 256 + 28) n)).releaseOverlap a n
  | _ => s.store a (s.mb.bytes.readBytes (m.val * 256 + 28) n)

/-- Writes of control stores and maps: in TEST, with every sequencer of the gallery halted. -/
def State.storesOpen (s : State) (m : MbId) : Bool :=
  s.eng.state == .test && (seqsOf (s.argGal m 1)).all fun q => (s.seq q).dbg.halted

/-- DBG_WRITEMEM. -/
def State.dbgWritemem (s : State) (m : MbId) (x : MpXfer) : State :=
  let sp := s.arg m 0 1
  s.lantern m 0x080A
    (s.spaceChecks m ++ [(sp = 1 && s.inStaging (s.arg m 4 8) (s.arg m 3 1), mbDENIED, 0),
      ((sp = 2 || sp = 3) && !s.storesOpen m, mbSTATE, 0)]) fun s =>
    let go (s : State) : State := (s.spaceWrite m).reply m mbOK
    if sp = 1 then s.xferDo m x 0 true (s.arg m 4 8) (s.arg m 3 1) go else go s

def execDbgWritemem (m : MbId) (x : MpXfer) (s : State) : Out State := .next (s.dbgWritemem m x)

/-! ### Ropes -/

/-- DBG_XTRIG: the rope's registers; the reply gives their previous values. -/
def State.dbgXtrig (s : State) (m : MbId) : State :=
  let r : Fin 8 := Fin.ofNat 8 (s.arg m 0 1)
  s.lantern m 0x080B
    [badIf (7 < s.arg m 0 1) 0, s.zeroAt m 1 3, badIf (s.absentMask (s.arg m 6 2)) 4,
      badIf (s.absentMask (s.arg m 8 2) || s.absentMask (s.arg m 10 2)) 8] fun s =>
    let old := leBytes 4 s.aon.xtsrc[r].toNat ++ leBytes 4 s.aon.xtdst[r].toNat
    let s := s.globWrite (.xtsrc r) (BitVec.ofNat 32 (s.arg m 4 4)) .lantern
    (s.globWrite (.xtdst r) (BitVec.ofNat 32 (s.arg m 8 4)) .lantern).reply m mbOK 0 old

def execDbgXtrig (m : MbId) (s : State) : Out State := .next (s.dbgXtrig m)

/-! ### The register image (R363) -/

/-- The 320 bytes of a sequencer. -/
def Seq.image (x : Seq) : List Byte :=
  let r := x.regs
  r.saveLow ++ List.replicate 32 0 ++ r.saveSegs ++ leBytes 16 r.s0r.toNat ++ leBytes 16 r.s7r.toNat ++ leBytes 2 r.spr.toNat
    ++ leBytes 2 r.vbr.toNat ++ leBytes 2 r.ecause.toNat ++ leBytes 2 r.eaddr.toNat ++ [r.lsp, 0] ++ leBytes 2 r.ctxid.toNat
    ++ leBytes 4 x.mic.ustat.toNat ++ leBytes 4 x.exc.excst.toNat ++ leBytes 4 (x.exc.irqpend.setWidth 32 : Word).toNat
    ++ leBytes 4 x.exc.wdctl.toNat ++ [0, 0, 0, 0]

/-- The image with bytes laid over it from an offset. -/
def imageOver (img : List Byte) (off : Nat) (bs : List Byte) : List Byte := img.take off ++ bs ++ img.drop (off + bs.length)

/-- A sequencer with the registers that an image gives; SHORT and the bytes from 0x12A up stay. -/
def Seq.withImage (x : Seq) (img : List Byte) : Seq :=
  let r := x.regs.load img
  let r : Regs := { r with
    st := r.st ||| (x.regs.st &&& 0x4000)
    s0r := BitVec.ofNat 128 (imgNat img 0x100 16)
    s7r := BitVec.ofNat 128 (imgNat img 0x110 16)
    spr := BitVec.ofNat 16 (imgNat img 0x120 2)
    vbr := BitVec.ofNat 16 (imgNat img 0x122 2) &&& 0xFF80
    ecause := BitVec.ofNat 16 (imgNat img 0x124 2) &&& 0x07FF
    eaddr := BitVec.ofNat 16 (imgNat img 0x126 2)
    lsp := lspWrite (BitVec.ofNat 8 (imgNat img 0x128 1)) }
  Seq.flush { x with regs := r }

/-- The descriptors of an image: register number and offset. -/
def imageDescs : List (BitVec 3 × Nat) := (List.range 8).map (fun i => (BitVec.ofNat 3 i, 0x80 + 16 * i)) ++ [(0, 0x100), (7, 0x110)]

/-- The cause of the first written descriptor that fails its check. -/
def imageFault (img : List Byte) (off n : Nat) : Option Byte :=
  (imageDescs.filter fun e => overlaps off n (e.2, 16)).findSome? fun e => sldCheck e.1 (BitVec.ofNat 128 (imgNat img e.2 16))

/-- DBG_REGS in one direction; a WRITE above 1 fails in either row. -/
def State.dbgRegs (s : State) (m : MbId) (write : Bool) (more : List Check) (body : SeqId → State → State) : State :=
  let w := s.arg m 2 1
  let n := s.arg m 3 1
  let q := s.argSeq m 0
  if w ≠ (if write then 1 else 0) ∧ w ≤ 1 then s else
  s.lantern m 0x080C
    (s.seqChecks m 0 ++ [badIf (1 < w) 2, badIf (n = 0 || decide (96 < n)) 3, badIf (0x140 < s.arg m 4 2 + n) 4, s.zeroAt m 6 2,
      s.galDown (galOf q), (!(s.seq q).dbg.halted, mbSTATE, 0)] ++ more) (body q)

/-- DBG_REGS read. -/
def execDbgRegsRead (m : MbId) (s : State) : Out State :=
  .next (s.dbgRegs m false [] fun q s =>
    s.reply m mbOK 0 (((s.seq q).image.drop (s.arg m 4 2)).take (s.arg m 3 1)))

/-- The image that a write would leave. -/
def State.newImage (s : State) (m : MbId) : List Byte :=
  imageOver (s.seq (s.argSeq m 0)).image (s.arg m 4 2) (s.mb.bytes.readBytes (m.val * 256 + 24) (s.arg m 3 1))

/-- DBG_REGS write: a descriptor that fails its check writes nothing. -/
def State.dbgRegsWrite (s : State) (m : MbId) : State :=
  let fault := imageFault (s.newImage m) (s.arg m 4 2) (s.arg m 3 1)
  s.dbgRegs m true [(fault.isSome, mbBADARG, (fault.getD 0).toNat)] fun q s =>
    (s.modSeq q fun x => x.withImage (s.newImage m)).reply m mbOK

def execDbgRegsWrite (m : MbId) (s : State) : Out State := .next (s.dbgRegsWrite m)

end Sys2Proof.Machine
end

