-- ==== Sys2Proof/Machine/Startup.lean ====
section
/-!
DEFINITION. Start-up (R341 to R343), the cold, engine and debug resets (R353, R393), last light and the return of power (R355
to R358).
-/

namespace Sys2Proof.Machine

open Sys2Proof

/-! ### Cold reset -/

/-- The chip's memories: every address below the engine-internal region. -/
def chipMemory (m : Memory) : Memory := m.filter fun e => decide (e.1 < scratchBase)

/-- The recorder at CALIB: the staging ring empty, numbering continued after the non-volatile ring (R386). -/
def Recorder.restart (r : Recorder) : Recorder :=
  let newest : Word := (r.nv.getLast?.map fun x => x.num).getD 0
  { nv := r.nv, next := if r.nv.isEmpty then 0 else newest + 1, newest := newest, newCom := newest }

/-- Every register at its reset value; the commands that wait, the configuration, the chip's memories and the non-volatile
ring stay. -/
def State.cold (s : State) : State :=
  { ({} : State) with
    pending := s.pending, variant := s.variant, freeCtr := s.freeCtr, mem := chipMemory s.mem, recd := s.recd.restart }

/-- POWER_ON_RESET: CALIB begins and asks for its first domain. -/
def State.powerOnReset (s : State) (bist : Bool) : State :=
  let s := s.cold
  ({ s with eng := { s.eng with bisten := bist } } : State).raiseNext

def execPowerOnReset (bist : Bool) (s : State) : Out State := .next (s.powerOnReset bist)

/-! ### CALIB, INIT, LOAD -/

/-- The least PERIOD that meets the bounds of R41. -/
def leastPeriod (mhz guard ratio : Nat) : Nat :=
  max (max (2 * mhz) (guard + 512)) ((1024 * 256 * 1000000 * mhz + ratio * 32768 - 1) / (ratio * 32768))

/-- PERIOD as CALIB sets it: 10 µs, or the least value that meets the bounds where that breaks one. -/
def calibPeriod (mhz guard ratio : Nat) : Nat :=
  if tickOk (10 * mhz) mhz guard ratio || ratio = 0 then 10 * mhz else leastPeriod mhz guard ratio

/-- CALIB_COMPLETE: the measurement and the last domain raise are complete: CCLKMHZ, PERIOD, phases and SCLKRATIO; INIT begins. A
domain that has not answered, or that timed out, keeps CALIB (R341, R343). -/
def State.calibComplete (s : State) (mhz : BitVec 11) (ratio : BitVec 24) : State :=
  if s.eng.state != .calib || s.pd.failed || !s.raiseOrder.all s.pdOn then s else
  let p := calibPeriod mhz.toNat s.plant.tguard.toNat ratio.toNat
  let s := { s with
    plant := { s.plant with mhz := mhz, period := BitVec.ofNat 21 p }
    ev := { s.ev with ratio := ratio } }
  let s := s.each s.galleries fun s g => s.modGal g fun x => { x with phase := s.defaultPhase g p }
  s.setEng .init

def execCalibComplete (mhz : BitVec 11) (ratio : BitVec 24) (s : State) : Out State := .next (s.calibComplete mhz ratio)

/-- A shared part failed BIST: the engine stops in LOAD. -/
def State.bistShared (s : State) (d : Fin 40) : State :=
  ({ s with eng := { s.eng with bistDead := true } } : State).bistRecord d.val

/-- One BIST failure. -/
def State.bistFail (s : State) : BistFail → State
  | .gallery g => if s.present g then s.bistGallery g else s
  | .shared d => s.bistShared d

/-- INIT_COMPLETE: the firmware of bank 0 is up, the mailboxes open, LOAD begins. -/
def State.initComplete (s : State) (bad : List BistFail) : State :=
  if s.eng.state != .init then s else
  let s := { s with
    mp := { s.mp with up := true, bank := false, fwver := Config.bootFwVer, stgBase := 0x10000000 }
    eng := { s.eng with ready := true } }
  let s := s.setEng .load
  if s.eng.bisten then s.each bad State.bistFail else s

def execInitComplete (bad : List BistFail) (s : State) : Out State := .next (s.initComplete bad)

/-- LOAD of one gallery: the boot-ROM parts, then the runtime area, which every present gallery gets (R401); one whose commit
fails stays SQUEEZED with CSVER = 0. -/
def State.loadGal (s : State) (failed : Half) (g : GalId) : State :=
  if !s.logicOn g then s else
  let bad := bit failed g.val
  let s := (s.commitGal g bootSet bad).writeRuntime g
  if bad then s else s.setGState g .serving

/-- LOAD_COMPLETE: every gallery has been attempted; START begins at tick 0, with E_0 = 0 and E_1 computed from the grant and
the hold-up report on the pins then (R50), and the ledger recounts. -/
def State.loadComplete (s : State) (failed : Half) (grant hold : BitVec 24) : State :=
  if s.eng.state != .load || s.eng.bistDead then s else
  let s := s.each s.galleries fun s g => s.loadGal failed g
  let s := s.setEng .start
  let s := { s with plant := { s.plant with tickOn := true, ticknum := 0 } }
  s.boundaryAt grant hold

def execLoadComplete (failed : LoadCourse) (s : State) : Out State := .next (s.loadComplete failed.failed failed.grant failed.hold)

/-! ### Engine and debug reset (R353) -/

/-- G0's debug registers, which PD34 holds. -/
def Dbg.kept (d : Dbg) : Dbg := { brkhalt := d.brkhalt, ubrken := d.ubrken, forced := d.forced, bpu := d.bpu, brkcode := d.brkcode }

/-- The always-on state that an engine reset keeps. -/
def Aon.kept (a : Aon) : Aon :=
  { a with att := false, nonce := none, ewdCount := 0x0148, ewdPeriod := 0x0148, xtOut := 0 }

/-- eng_rst_n: as a cold reset outside PD34, with both recorder rings kept and RSTCAUSE at its reset value with ENG set (log 75);
then CALIB. -/
def State.engReset (s : State) : State :=
  let c := s.cold
  let c := { c with
    aon := s.aon.kept
    recd := { s.recd with lost := 0, credit := 0x40, burst := 0x40, request := none }
    eng := { c.eng with bisten := s.eng.bisten, rstcause := c.eng.rstcause ||| 0x02 }
    pd := { c.pd with req := s.pd.req &&& 0xFF00000000 } }
  let c := c.each (seqsOf 0) fun c q => c.modSeq q fun x => { x with dbg := (s.seq q).dbg.kept }
  c.raiseNext

/-- ENGINE_RESET: a pulse of fewer than 16 fc has an undefined extent and must not occur (R393). -/
def execEngineReset (lowFc : Nat) (s : State) : Out State :=
  if lowFc < 16 then .fault .resetPulseTooShort else .next s.engReset

/-- The always-on state after dbg_rst_n: LOCK and the nonce counter stay until por_n. -/
def Aon.debugReset (a : Aon) : Aon :=
  { lock := a.lock, nonceCtr := a.nonceCtr, ewdCount := a.ewdCount, ewdPeriod := a.ewdPeriod }

/-- dbg_rst_n: debug state of PD34 with G0's, ropes and the attachment; galleries keep serving. -/
def State.dbgReset (s : State) : State :=
  let s := (({ s with aon := s.aon.debugReset } : State)).rstBit 2
  let s := s.each s.galleries fun s g => s.modGal g fun x => { x with xtin := false }
  let s := s.each s.allSeqs fun s q => s.modSeq q fun x => { x with dbg := { x.dbg with rope := none } }
  s.each (seqsOf 0) fun s q => (s.modSeq q fun x => { x with dbg := {}, dhalt := false }).idleBind q

/-- DEBUG_RESET. -/
def execDebugReset (lowFc : Nat) (s : State) : Out State :=
  if lowFc < 16 then .fault .resetPulseTooShort else .next s.dbgReset

/-! ### Last light (R355) -/

/-- A sequencer that last light stops: its state is discarded; one that a microfault stopped, or that is in reset, stays so. -/
def Seq.darken (x : Seq) : Seq :=
  let y : Seq := { x with prods := [], pool := none }
  { y.reset with run := if x.run == .mfault || x.run == .reset then x.run else .stopped }

/-- An item of a squeezing gallery that power loss returns is not one of its completed ones. -/
def State.squeezeReturned (s : State) (g : GalId) : State :=
  s.modGal g fun x => { x with squeeze := x.squeeze.map fun (m, n, a, b, r) => (m, n - 1, a, b, r + 1) }

/-- Step 2 for one sequencer: items return, locks break, vector 22. -/
def State.stopSeq (s : State) (q : SeqId) : State :=
  let s := if (s.seq q).running.isSome then s.squeezeReturned (galOf q) else s
  let s := (s.abandon q).breakLock q
  let s := s.dropRunning q stRETURNED 0x16
  let s := s.dropPrefetch q 0x16
  (s.modSeq q Seq.darken).irq q 6

/-- Requests of a gallery's writes in flight that hold a reservation. -/
def State.reservedRids (s : State) (g : GalId) : List Nat :=
  ((s.gal g).md.tags.filter fun t => t.req.purpose.isWrite && !t.noResv).map fun t => t.req.rid

/-- Writes of a gallery, waiting or unanswered, that a predicate picks. -/
def State.countWrites (s : State) (g : GalId) (p : MReq → Bool) : Nat :=
  ((s.gal g).md.waiting.countP fun r => r.purpose.isWrite && p r)
    + (s.gal g).md.tags.countP fun t => t.req.purpose.isWrite && !t.sump && p t.req

/-- Step 3 for one gallery: everything but reserved writes retires RETRACTED. -/
def State.retractUnreserved (s : State) (g : GalId) : State :=
  let keep := s.reservedRids g
  let p (r : MReq) : Bool := !keep.contains r.rid
  let n := s.countWrites g p
  let s := ((s.retract g p).retractLines g fun _ => true).releaseLines g fun _ => true
  { s with pd := { s.pd with retracted := s.pd.retracted + n } }

/-- Commits in progress are abandoned (R112); each mailbox is told which galleries were done. -/
def State.commitAbandon (s : State) : State :=
  s.each s.mp.commits fun s c => match c.todo with
    | g :: _ => s.commitPartial c.box c.done g
    | [] => s

/-- PLW_ASSERT: steps 1 to 3. -/
def State.plwAssert (s : State) : State :=
  if s.pd.active then s else
  let s := { s with pd := { s.pd with
    active := true, closed := false, wrDone := false, retracted := 0, completed := 0, committed := 0
    restore := s.galleries.filter fun g => s.serving g } }
  let s := s.hirq hirqPlw
  let s := s.each s.allSeqs State.stopSeq
  (s.each s.galleries State.retractUnreserved).commitAbandon

def execPlwAssert (s : State) : Out State := .next s.plwAssert

/-- WRWAIT_EXPIRY: reserved writes still unanswered are retracted. -/
def State.wrwaitExpiry (s : State) : State :=
  if !s.lastLight || s.pd.wrDone then s else
  let one (s : State) (g : GalId) : State :=
    let n := s.countWrites g fun _ => true
    let s := s.retract g fun _ => true
    { s with pd := { s.pd with retracted := s.pd.retracted + n } }
  let s := s.each s.galleries one
  { s with pd := { s.pd with wrDone := true } }

def execWrwaitExpiry (s : State) : Out State := .next s.wrwaitExpiry

/-- Steps 4 and 5 are done: no reserved write is unanswered and every record is committed. -/
def State.lightSpent (s : State) : Bool :=
  s.lastLight && (s.pd.wrDone || s.galleries.all fun g => (s.reservedRids g).isEmpty) && s.recd.staging.all fun r => r.committed

/-- The LASTLIGHT record, written and committed. -/
def State.lightRecord (s : State) (elapsed : BitVec 12) : State :=
  let s := s.record 8 (recSrc 8 0 0xFF) .staged
    (leBytes 2 elapsed.toNat ++ [0, 0] ++ leBytes 4 s.pd.retracted ++ leBytes 4 s.pd.completed ++ leBytes 2 s.pd.committed)
  match s.recd.staging.getLast? with
  | none => s
  | some r => { s with recd := s.recd.commit r }

/-- A gallery's pd_req[2g] falls; its logic goes dark, with all debug state but G0's, and its GSTATE stays. -/
def State.lightsOut (s : State) (g : GalId) : State :=
  let s := if s.pdOn (2 * g.val) then s.logicOff g false else s
  s.setPd (2 * g.val) false false

/-- LAST_LIGHT_DONE (step 6). -/
def State.lastLightDone (s : State) (elapsed : BitVec 12) : State :=
  if !s.lightSpent then s else
  let s := s.lightRecord elapsed
  let s := { s with pd := { s.pd with done := true, closed := true, elapsed := elapsed } }
  s.each s.galleries State.lightsOut

def execLastLightDone (elapsed : BitVec 12) (s : State) : Out State := .next (s.lastLightDone elapsed)

/-! ### Power returns (R358) -/

/-- One gallery that was SERVING: its installed copy is checked and committed, and the gallery released; else it stays
SQUEEZED with CSVER = 0. -/
def State.restoreGal (s : State) (g : GalId) (tags : List CmpPair) : State :=
  let set := (s.gal g).installed
  match s.authParts set.parts tags false with
  | (none, s) => (s.commitGal g set false).releaseGal g
  | (some _, s) => s.setGState g .squeezed

/-- The MP's part, in ascending order, each gallery with the comparator's answers for its own parts. -/
def State.restoreAll (s : State) : List GalId → List CmpPair → State
  | [], _ => s
  | g :: gs, tags => State.restoreAll (s.restoreGal g tags) gs (tags.drop (s.gal g).installed.parts.length)

/-- A squeeze that power loss stopped ends its deadline. -/
def State.endDeadline (s : State) (g : GalId) : State :=
  if (s.gal g).gstate == .squeezing then (s.modGal g fun x => { x with deadleft := 0 }).squeezeCheck g else s

/-- Once every domain asked for has answered: RECOVERY, then the MP's part as soon as the MP is up, then ACTIVE clears. -/
def State.returnAdvance (s : State) : State :=
  match s.pd.back with
  | none => s
  | some tags =>
    if !s.pd.awaited.isEmpty then s else
    let s := s.recovery
    if s.eng.mpbusy then s else
    let s := s.restoreAll s.pd.restore tags
    let s := { s with pd := { s.pd with active := false, closed := false, restore := [], back := none } }
    s.each s.galleries State.endDeadline

/-- POWER_RETURN: after last light has closed and without a reset, pd_req[2g] of each gallery that was SERVING rises; the rest
follows their acknowledgements (R346). -/
def State.powerReturn (s : State) (tags : List CmpPair) : State :=
  if !s.pd.active || !s.pd.closed || s.pd.back.isSome then s else
  let s := { s with pd := { s.pd with awaited := s.pd.restore, back := some tags } }
  (s.each s.pd.restore fun s g => s.setPd (2 * g.val) true false).returnAdvance

def execPowerReturn (tags : List CmpPair) (s : State) : Out State := .next (s.powerReturn tags)

/-- PD_ACK: an acknowledgement rises or falls. -/
def execPdAck (d : Fin 40) (level : Bool) (s : State) : Out State := .next (s.pdAck d.val level).returnAdvance

def execPdAckTimeout (d : Fin 40) (s : State) : Out State := .next (s.pdTimeout d.val).returnAdvance

/-- MP_WARM_RESET_RETURN: what waited for the MP goes on (R354). -/
def execMpWarmResetReturn (s : State) : Out State := .next (s.mpReturn).returnAdvance

end Sys2Proof.Machine
end

