-- ==== Sys2Proof/Machine/Dispatch.lean ====
section
/-!
DEFINITION. One arm for each constructor of Instr: a direct call of its meaning.
-/

namespace Sys2Proof.Machine

open Sys2Proof

def exec (i : Instr) (s : State) : Host.Outcome State Fault Refusal :=
  match i with
  | .microwordIssue q => Sys2Proof.Machine.execMicrowordIssue q s
  | .scratchReadReturn q => Sys2Proof.Machine.execScratchReadReturn q s
  | .productLanding q => Sys2Proof.Machine.execProductLanding q s
  | .poolLanding q => Sys2Proof.Machine.execPoolLanding q s
  | .pair q w => Sys2Proof.Machine.execPair q w s
  | .ldb q f => Sys2Proof.Machine.execLdb q f s
  | .stb q f => Sys2Proof.Machine.execStb q f s
  | .ldh q f => Sys2Proof.Machine.execLdh q f s
  | .sth q f => Sys2Proof.Machine.execSth q f s
  | .ldw q f => Sys2Proof.Machine.execLdw q f s
  | .stw q f => Sys2Proof.Machine.execStw q f s
  | .lda q f => Sys2Proof.Machine.execLda q f s
  | .sta q f => Sys2Proof.Machine.execSta q f s
  | .movl q f => Sys2Proof.Machine.execMovl q f s
  | .movx q f => Sys2Proof.Machine.execMovx q f s
  | .sld q f => Sys2Proof.Machine.execSld q f s
  | .sst q f => Sys2Proof.Machine.execSst q f s
  | .lea q f => Sys2Proof.Machine.execLea q f s
  | .push q minor rd => Sys2Proof.Machine.execPush q minor rd s
  | .pop q minor rd => Sys2Proof.Machine.execPop q minor rd s
  | .addW q rd rs => Sys2Proof.Machine.execAddW q rd rs s
  | .adcW q rd rs => Sys2Proof.Machine.execAdcW q rd rs s
  | .subW q rd rs => Sys2Proof.Machine.execSubW q rd rs s
  | .sbcW q rd rs => Sys2Proof.Machine.execSbcW q rd rs s
  | .cmpW q rd rs => Sys2Proof.Machine.execCmpW q rd rs s
  | .andW q rd rs => Sys2Proof.Machine.execAndW q rd rs s
  | .orW q rd rs => Sys2Proof.Machine.execOrW q rd rs s
  | .xorW q rd rs => Sys2Proof.Machine.execXorW q rd rs s
  | .andnW q rd rs => Sys2Proof.Machine.execAndnW q rd rs s
  | .notW q rd rs => Sys2Proof.Machine.execNotW q rd rs s
  | .negW q rd rs => Sys2Proof.Machine.execNegW q rd rs s
  | .shlW q rd n => Sys2Proof.Machine.execShlW q rd n s
  | .shrW q rd n => Sys2Proof.Machine.execShrW q rd n s
  | .asrW q rd n => Sys2Proof.Machine.execAsrW q rd n s
  | .rolW q rd n => Sys2Proof.Machine.execRolW q rd n s
  | .rorW q rd n => Sys2Proof.Machine.execRorW q rd n s
  | .shlH q rd n => Sys2Proof.Machine.execShlH q rd n s
  | .shrH q rd n => Sys2Proof.Machine.execShrH q rd n s
  | .asrH q rd n => Sys2Proof.Machine.execAsrH q rd n s
  | .rolH q rd n => Sys2Proof.Machine.execRolH q rd n s
  | .rorH q rd n => Sys2Proof.Machine.execRorH q rd n s
  | .addH q rd rs => Sys2Proof.Machine.execAddH q rd rs s
  | .adcH q rd rs => Sys2Proof.Machine.execAdcH q rd rs s
  | .subH q rd rs => Sys2Proof.Machine.execSubH q rd rs s
  | .sbcH q rd rs => Sys2Proof.Machine.execSbcH q rd rs s
  | .cmpH q rd rs => Sys2Proof.Machine.execCmpH q rd rs s
  | .andH q rd rs => Sys2Proof.Machine.execAndH q rd rs s
  | .orH q rd rs => Sys2Proof.Machine.execOrH q rd rs s
  | .xorH q rd rs => Sys2Proof.Machine.execXorH q rd rs s
  | .notH q rd rs => Sys2Proof.Machine.execNotH q rd rs s
  | .negH q rd rs => Sys2Proof.Machine.execNegH q rd rs s
  | .brevW q rd rs => Sys2Proof.Machine.execBrevW q rd rs s
  | .brevH q rd rs => Sys2Proof.Machine.execBrevH q rd rs s
  | .parW q rd rs => Sys2Proof.Machine.execParW q rd rs s
  | .parH q rd rs => Sys2Proof.Machine.execParH q rd rs s
  | .swapbH q rd rs => Sys2Proof.Machine.execSwapbH q rd rs s
  | .sextH q rd rs => Sys2Proof.Machine.execSextH q rd rs s
  | .zextH q rd rs => Sys2Proof.Machine.execZextH q rd rs s
  | .sextW q rd rs => Sys2Proof.Machine.execSextW q rd rs s
  | .zextW q rd rs => Sys2Proof.Machine.execZextW q rd rs s
  | .clzW q rd rs => Sys2Proof.Machine.execClzW q rd rs s
  | .crci q rd => Sys2Proof.Machine.execCrci q rd s
  | .crcbW q rd rs => Sys2Proof.Machine.execCrcbW q rd rs s
  | .crch q rd rs => Sys2Proof.Machine.execCrch q rd rs s
  | .crcw q rd rs => Sys2Proof.Machine.execCrcw q rd rs s
  | .crcf q rd rs => Sys2Proof.Machine.execCrcf q rd rs s
  | .addiH q rd imm => Sys2Proof.Machine.execAddiH q rd imm s
  | .addiW q rd imm => Sys2Proof.Machine.execAddiW q rd imm s
  | .cmpiH q rd imm => Sys2Proof.Machine.execCmpiH q rd imm s
  | .cmpiW q rd imm => Sys2Proof.Machine.execCmpiW q rd imm s
  | .jmp q t => Sys2Proof.Machine.execJmp q t s
  | .jcc q minor t => Sys2Proof.Machine.execJcc q minor t s
  | .call q t => Sys2Proof.Machine.execCall q t s
  | .ret q => Sys2Proof.Machine.execRet q s
  | .loop q rd imm => Sys2Proof.Machine.execLoop q rd imm s
  | .gate q imm => Sys2Proof.Machine.execGate q imm s
  | .rets q => Sys2Proof.Machine.execRets q s
  | .trap q imm => Sys2Proof.Machine.execTrap q imm s
  | .jmpa q rs => Sys2Proof.Machine.execJmpa q rs s
  | .calla q rs => Sys2Proof.Machine.execCalla q rs s
  | .mul q minor rs rx => Sys2Proof.Machine.execMul q minor rs rx s
  | .mula q minor rs rx => Sys2Proof.Machine.execMula q minor rs rx s
  | .div q minor rd rs rx => Sys2Proof.Machine.execDiv q minor rd rs rx s
  | .rem q minor rd rs rx => Sys2Proof.Machine.execRem q minor rd rs rx s
  | .fadd q minor rd rs rx => Sys2Proof.Machine.execFadd q minor rd rs rx s
  | .fsub q minor rd rs rx => Sys2Proof.Machine.execFsub q minor rd rs rx s
  | .fmul q minor rd rs rx => Sys2Proof.Machine.execFmul q minor rd rs rx s
  | .fdiv q minor rd rs rx => Sys2Proof.Machine.execFdiv q minor rd rs rx s
  | .fsqrt q minor rd rs rx => Sys2Proof.Machine.execFsqrt q minor rd rs rx s
  | .fma q minor rd rs rx => Sys2Proof.Machine.execFma q minor rd rs rx s
  | .fcmp q minor rd rs rx => Sys2Proof.Machine.execFcmp q minor rd rs rx s
  | .fcvt q minor rd rs rx => Sys2Proof.Machine.execFcvt q minor rd rs rx s
  | .fminmax q minor rd rs rx => Sys2Proof.Machine.execFminmax q minor rd rs rx s
  | .fclass q minor rd rs rx => Sys2Proof.Machine.execFclass q minor rd rs rx s
  | .fbar q => Sys2Proof.Machine.execFbar q s
  | .fetch q v f => Sys2Proof.Machine.execFetch q v f s
  | .put q v f => Sys2Proof.Machine.execPut q v f s
  | .waitt q f => Sys2Proof.Machine.execWaitt q f s
  | .copy q v f => Sys2Proof.Machine.execCopy q v f s
  | .scan q v f => Sys2Proof.Machine.execScan q v f s
  | .crcs q v f => Sys2Proof.Machine.execCrcs q v f s
  | .matchS q f => Sys2Proof.Machine.execMatchS q f s
  | .matchF q f => Sys2Proof.Machine.execMatchF q f s
  | .hashs q v f => Sys2Proof.Machine.execHashs q v f s
  | .filt q v f => Sys2Proof.Machine.execFilt q v f s
  | .dgstP q f => Sys2Proof.Machine.execDgstP q f s
  | .dgstOpen q f => Sys2Proof.Machine.execDgstOpen q f s
  | .dgstFinal q f => Sys2Proof.Machine.execDgstFinal q f s
  | .dgstCheck q f => Sys2Proof.Machine.execDgstCheck q f s
  | .dgstSave q f => Sys2Proof.Machine.execDgstSave q f s
  | .dgstLoad q f => Sys2Proof.Machine.execDgstLoad q f s
  | .dgstAbort q f => Sys2Proof.Machine.execDgstAbort q f s
  | .fills q v f => Sys2Proof.Machine.execFills q v f s
  | .cmps q v f => Sys2Proof.Machine.execCmps q v f s
  | .streamStep q => Sys2Proof.Machine.execStreamStep q s
  | .transferRetire ctx => Sys2Proof.Machine.execTransferRetire ctx s
  | .runAheadStart q => Sys2Proof.Machine.execRunAheadStart q s
  | .shadowInstruction q sh => Sys2Proof.Machine.execShadowInstruction q sh s
  | .lineAgeExpiry g line => Sys2Proof.Machine.execLineAgeExpiry g line s
  | .hold q f => Sys2Proof.Machine.execHold q f s
  | .free q f => Sys2Proof.Machine.execFree q f s
  | .yield q => Sys2Proof.Machine.execYield q s
  | .wdog q => Sys2Proof.Machine.execWdog q s
  | .stim q imm => Sys2Proof.Machine.execStim q imm s
  | .evtPub q ch => Sys2Proof.Machine.execEvtPub q ch s
  | .evtTake q ch => Sys2Proof.Machine.execEvtTake q ch s
  | .evtCnt q rd ch => Sys2Proof.Machine.execEvtCnt q rd ch s
  | .waite q ch => Sys2Proof.Machine.execWaite q ch s
  | .waiteT q imm => Sys2Proof.Machine.execWaiteT q imm s
  | .waitEnd q => Sys2Proof.Machine.execWaitEnd q s
  | .brk q k => Sys2Proof.Machine.execBrk q k s
  | .halt q => Sys2Proof.Machine.execHalt q s
  | .haltWake q => Sys2Proof.Machine.execHaltWake q s
  | .setml q imm => Sys2Proof.Machine.execSetml q imm s
  | .exceptionEntry q r => Sys2Proof.Machine.execExceptionEntry q r s
  | .fptrapEntry q => Sys2Proof.Machine.execFptrapEntry q s
  | .unbindRequest q => Sys2Proof.Machine.execUnbindRequest q s
  | .debugHalt q => Sys2Proof.Machine.execDebugHalt q s
  | .deferredHaltForced q => Sys2Proof.Machine.execDeferredHaltForced q s
  | .tickYield q => Sys2Proof.Machine.execTickYield q s
  | .interruptEntry q => Sys2Proof.Machine.execInterruptEntry q s
  | .tickAcknowledgement q switchTo => Sys2Proof.Machine.execTickAcknowledgement q switchTo s
  | .cycleBudgetExhausted q => Sys2Proof.Machine.execCycleBudgetExhausted q s
  | .budgetStall q => Sys2Proof.Machine.execBudgetStall q s
  | .sequencerWatchdogExpiry q => Sys2Proof.Machine.execSequencerWatchdogExpiry q s
  | .referenceTick grant hold => Sys2Proof.Machine.execReferenceTick grant hold s
  | .plantStale => Sys2Proof.Machine.execPlantStale s
  | .temperatureSample src temp => Sys2Proof.Machine.execTemperatureSample src temp s
  | .scrubRewrite q isMap addr => Sys2Proof.Machine.execScrubRewrite q isMap addr s
  | .controlStoreRepair q isMap addr tag => Sys2Proof.Machine.execControlStoreRepair q isMap addr tag s
  | .ledgerAudit => Sys2Proof.Machine.execLedgerAudit s
  | .ledgerRecount => Sys2Proof.Machine.execLedgerRecount s
  | .galleryTickStart g => Sys2Proof.Machine.execGalleryTickStart g s
  | .quantumExpiry q => Sys2Proof.Machine.execQuantumExpiry q s
  | .squeezeDeadline g => Sys2Proof.Machine.execSqueezeDeadline g s
  | .rehoming ctx h x => Sys2Proof.Machine.execRehoming ctx h x s
  | .fabricRequest q => Sys2Proof.Machine.execFabricRequest q s
  | .retryRepeat q => Sys2Proof.Machine.execRetryRepeat q s
  | .scratchEccWriteback g bank => Sys2Proof.Machine.execScratchEccWriteback g bank s
  | .retentionEntry g bank => Sys2Proof.Machine.execRetentionEntry g bank s
  | .bankWake g bank => Sys2Proof.Machine.execBankWake g bank s
  | .runtimeBlockLoad q => Sys2Proof.Machine.execRuntimeBlockLoad q s
  | .workDescriptor d => Sys2Proof.Machine.execWorkDescriptor d s
  | .workRecall g => Sys2Proof.Machine.execWorkRecall g s
  | .completionRecord => Sys2Proof.Machine.execCompletionRecord s
  | .mediaRequestIssue g tag => Sys2Proof.Machine.execMediaRequestIssue g tag s
  | .creditGrant g k => Sys2Proof.Machine.execCreditGrant g k s
  | .readBeat g tag nb data => Sys2Proof.Machine.execReadBeat g tag nb data s
  | .writeBeat g => Sys2Proof.Machine.execWriteBeat g s
  | .mediaResponse g tag st dlen => Sys2Proof.Machine.execMediaResponse g tag st dlen s
  | .mediaTimeout g tag => Sys2Proof.Machine.execMediaTimeout g tag s
  | .digestGrant => Sys2Proof.Machine.execDigestGrant s
  | .digestTransactionDone err data => Sys2Proof.Machine.execDigestTransactionDone err data s
  | .digestTransactionTimeout => Sys2Proof.Machine.execDigestTransactionTimeout s
  | .comparatorAnswer p => Sys2Proof.Machine.execComparatorAnswer p s
  | .comparatorTimeout => Sys2Proof.Machine.execComparatorTimeout s
  | .eventInputEdge pin level => Sys2Proof.Machine.execEventInputEdge pin level s
  | .eventInputStuck pin => Sys2Proof.Machine.execEventInputStuck pin s
  | .countDelivery ch => Sys2Proof.Machine.execCountDelivery ch s
  | .lutCellEvaluation j => Sys2Proof.Machine.execLutCellEvaluation j s
  | .eventOutputPulse pin => Sys2Proof.Machine.execEventOutputPulse pin s
  | .timerMatch g t => Sys2Proof.Machine.execTimerMatch g t s
  | .timerCtlWrite g t v => Sys2Proof.Machine.execTimerCtlWrite g t v s
  | .timerCountWrite g t high v => Sys2Proof.Machine.execTimerCountWrite g t high v s
  | .timerCmpWrite g t high v => Sys2Proof.Machine.execTimerCmpWrite g t high v s
  | .capRead g t => Sys2Proof.Machine.execCapRead g t s
  | .ticknumlRead => Sys2Proof.Machine.execTicknumlRead s
  | .tickcfgWrite guard v => Sys2Proof.Machine.execTickcfgWrite guard v s
  | .phaseWrite g v => Sys2Proof.Machine.execPhaseWrite g v s
  | .ledgvalWrite v => Sys2Proof.Machine.execLedgvalWrite v s
  | .rearm => Sys2Proof.Machine.execRearm s
  | .bankownWrite g high v a => Sys2Proof.Machine.execBankownWrite g high v a s
  | .bankretWrite g v a => Sys2Proof.Machine.execBankretWrite g v a s
  | .rtbaseWrite g v => Sys2Proof.Machine.execRtbaseWrite g v s
  | .irqsetWrite q v => Sys2Proof.Machine.execIrqsetWrite q v s
  | .mcfaultRestart q => Sys2Proof.Machine.execMcfaultRestart q s
  | .chsubWrite n v => Sys2Proof.Machine.execChsubWrite n v s
  | .lutctlWrite j v => Sys2Proof.Machine.execLutctlWrite j v s
  | .dbgctlHalt q => Sys2Proof.Machine.execDbgctlHalt q s
  | .dbgctlResume q => Sys2Proof.Machine.execDbgctlResume q s
  | .ewdkick v a => Sys2Proof.Machine.execEwdkick v a s
  | .doorbell high v => Sys2Proof.Machine.execDoorbell high v s
  | .registerWrite addr v => Sys2Proof.Machine.execRegisterWrite addr v s
  | .engineWatchdogExpiry => Sys2Proof.Machine.execEngineWatchdogExpiry s
  | .mpWarmResetReturn => Sys2Proof.Machine.execMpWarmResetReturn s
  | .engInfo m => Sys2Proof.Machine.execEngInfo m s
  | .engStatus m => Sys2Proof.Machine.execEngStatus m s
  | .engState m => Sys2Proof.Machine.execEngState m s
  | .winOpen m => Sys2Proof.Machine.execWinOpen m s
  | .winClose m => Sys2Proof.Machine.execWinClose m s
  | .ucodeStage m x => Sys2Proof.Machine.execUcodeStage m x s
  | .ucodeVerify m tags => Sys2Proof.Machine.execUcodeVerify m tags s
  | .ucodeCommit m tags bad => Sys2Proof.Machine.execUcodeCommit m tags bad s
  | .mapLoad m x => Sys2Proof.Machine.execMapLoad m x s
  | .fwStage m x tag => Sys2Proof.Machine.execFwStage m x tag s
  | .fwSwitch m => Sys2Proof.Machine.execFwSwitch m s
  | .patchLoad m x tag => Sys2Proof.Machine.execPatchLoad m x tag s
  | .galSqueeze m => Sys2Proof.Machine.execGalSqueeze m s
  | .galRelease m => Sys2Proof.Machine.execGalRelease m s
  | .galFence m => Sys2Proof.Machine.execGalFence m s
  | .galPowerOff m => Sys2Proof.Machine.execGalPowerOff m s
  | .galPowerRetain m => Sys2Proof.Machine.execGalPowerRetain m s
  | .galPowerOn m => Sys2Proof.Machine.execGalPowerOn m s
  | .galQuery m => Sys2Proof.Machine.execGalQuery m s
  | .ctxOpen m x => Sys2Proof.Machine.execCtxOpen m x s
  | .ctxClose m => Sys2Proof.Machine.execCtxClose m s
  | .segBind m x => Sys2Proof.Machine.execSegBind m x s
  | .progLoad m x => Sys2Proof.Machine.execProgLoad m x s
  | .progUnload m => Sys2Proof.Machine.execProgUnload m s
  | .workCfg m => Sys2Proof.Machine.execWorkCfg m s
  | .ctxQuery m => Sys2Proof.Machine.execCtxQuery m s
  | .budgetSet m => Sys2Proof.Machine.execBudgetSet m s
  | .plantCfg m => Sys2Proof.Machine.execPlantCfg m s
  | .holdupCfg m => Sys2Proof.Machine.execHoldupCfg m s
  | .tickCfg m => Sys2Proof.Machine.execTickCfg m s
  | .evtSub m => Sys2Proof.Machine.execEvtSub m s
  | .lutProg m => Sys2Proof.Machine.execLutProg m s
  | .timerCfg m => Sys2Proof.Machine.execTimerCfg m s
  | .stagger m => Sys2Proof.Machine.execStagger m s
  | .bbRead m x => Sys2Proof.Machine.execBbRead m x s
  | .bbMark m => Sys2Proof.Machine.execBbMark m s
  | .traceCfg m => Sys2Proof.Machine.execTraceCfg m s
  | .dbgAttachChallenge m => Sys2Proof.Machine.execDbgAttachChallenge m s
  | .dbgAttachResponse m tag => Sys2Proof.Machine.execDbgAttachResponse m tag s
  | .dbgDetach m => Sys2Proof.Machine.execDbgDetach m s
  | .dbgHalt m => Sys2Proof.Machine.execDbgHalt m s
  | .dbgResume m => Sys2Proof.Machine.execDbgResume m s
  | .dbgStepInstruction m => Sys2Proof.Machine.execDbgStepInstruction m s
  | .dbgStepMicroword m => Sys2Proof.Machine.execDbgStepMicroword m s
  | .stepTimeout q => Sys2Proof.Machine.execStepTimeout q s
  | .dbgBreakSet m => Sys2Proof.Machine.execDbgBreakSet m s
  | .dbgBreakClear m => Sys2Proof.Machine.execDbgBreakClear m s
  | .dbgPeek m => Sys2Proof.Machine.execDbgPeek m s
  | .dbgPoke m => Sys2Proof.Machine.execDbgPoke m s
  | .dbgReadmem m x => Sys2Proof.Machine.execDbgReadmem m x s
  | .dbgWritemem m x => Sys2Proof.Machine.execDbgWritemem m x s
  | .dbgXtrig m => Sys2Proof.Machine.execDbgXtrig m s
  | .dbgRegsRead m => Sys2Proof.Machine.execDbgRegsRead m s
  | .dbgRegsWrite m => Sys2Proof.Machine.execDbgRegsWrite m s
  | .xtInEdge r => Sys2Proof.Machine.execXtInEdge r s
  | .ropePulseEnd r => Sys2Proof.Machine.execRopePulseEnd r s
  | .recordCommit => Sys2Proof.Machine.execRecordCommit s
  | .commitCreditRise => Sys2Proof.Machine.execCommitCreditRise s
  | .tracePacket => Sys2Proof.Machine.execTracePacket s
  | .powerOnReset bist => Sys2Proof.Machine.execPowerOnReset bist s
  | .calibComplete mhz ratio => Sys2Proof.Machine.execCalibComplete mhz ratio s
  | .initComplete bad => Sys2Proof.Machine.execInitComplete bad s
  | .loadComplete failed => Sys2Proof.Machine.execLoadComplete failed s
  | .engineReset lowFc => Sys2Proof.Machine.execEngineReset lowFc s
  | .debugReset lowFc => Sys2Proof.Machine.execDebugReset lowFc s
  | .pdAck d level => Sys2Proof.Machine.execPdAck d level s
  | .pdAckTimeout d => Sys2Proof.Machine.execPdAckTimeout d s
  | .plwAssert => Sys2Proof.Machine.execPlwAssert s
  | .wrwaitExpiry => Sys2Proof.Machine.execWrwaitExpiry s
  | .lastLightDone elapsed => Sys2Proof.Machine.execLastLightDone elapsed s
  | .powerReturn tags => Sys2Proof.Machine.execPowerReturn tags s
  | .registerRead addr => Sys2Proof.Machine.execRegisterRead addr s
  | .timerIncrement g t => Sys2Proof.Machine.execTimerIncrement g t s
  | .sclkratioRemeasure ratio => Sys2Proof.Machine.execSclkratioRemeasure ratio s
  | .vddRetLoss g => Sys2Proof.Machine.execVddRetLoss g s

end Sys2Proof.Machine
end

