-- ==== Sys2Proof/Safety.lean ====
section
/-!
DEFINITION. What the statements mean by a safe run, by an instruction that can run, by what it leaves unchanged, and by
the flags and numbers of the manual's tables.
-/

namespace Sys2Proof

open Sys2Proof.Machine

/-- A step answers a next state: no fault and no refusal. -/
def Completes (i : Instr) (s : State) : Prop := ∃ t, exec i s = .next t

/-- A command answers a next state of which p holds. -/
def Does (i : Instr) (s : State) (p : State → Prop) : Prop := ∃ t, exec i s = .next t ∧ p t

/-- The two memories are in their canonical form. -/
def MemOk (s : State) : Prop := s.mem.wf = true ∧ s.mb.bytes.wf = true

/-- Every byte of memory reads as before. -/
def SameMem (s t : State) : Prop := ∀ a, t.mem.get a = s.mem.get a

/-- Memory after bytes were stored from address a up: those bytes read back, every other byte reads as before. -/
def Stored (s t : State) (a : Nat) (bs : List Byte) : Prop :=
  (∀ (i : Nat) (h : i < bs.length), t.mem.get (a + i) = bs[i]) ∧
  ∀ b, (b < a ∨ a + bs.length ≤ b) → t.mem.get b = s.mem.get b

/-- Nothing but sequencer q differs. -/
def OnlySeq (q : SeqId) (s t : State) : Prop := t = { s with seqs := t.seqs } ∧ ∀ p, p ≠ q → t.seq p = s.seq p

/-- Nothing but gallery g differs. -/
def OnlyGal (g : GalId) (s t : State) : Prop := t = { s with gals := t.gals } ∧ ∀ h, h ≠ g → t.gal h = s.gal h

/-! ### An instruction that runs -/

/-- The state after the instruction at PC has been fetched: a fetch may find codewords that are corrected or not (R253,
R265); it changes no sequencer. -/
def fetched (q : SeqId) (s : State) : State := match s.fetchAt q with | .ok t _ => t | _ => s

/-- Sequencer q is at an instruction boundary and runs the instruction there (R90, R244): it issues and waits for nothing, no
cause of BOUND is pending, the fetch at PC succeeds, no breakpoint unit stops it (R371), and the instruction touches no
pending item of a pool operation in flight (R213). -/
def canRun (q : SeqId) (touch : Touch) (s : State) : Bool :=
  s.ready q && match s.fetchAt q with
  | .ok t ea => ((t.seq q).dbg.bpSkip || (t.bpMatch q ea).isNone) && !touch.meets (t.seq q).pool
  | _ => false

/-- From state a, in which the instruction's own effect is done, sequencer q has retired to pc: nothing else changes, but
for the queue, whose next word becomes the head, the shadow copy, DBL at the return of LSP (R247), and the counts of a
deferred halt, a step and the watchdog while stepping (R367 to R369). -/
def Retires (q : SeqId) (a : State) (pc : Half) (t : State) : Prop :=
  OnlySeq q a t ∧
  t.seq q = { a.seq q with
    regs := { a.regs q with pc := pc }
    mic := (a.seq q).mic.pop
    ra := { (a.seq q).ra with shadow := none }
    exc := { (a.seq q).exc with dbl := (t.seq q).exc.dbl, wdcount := (t.seq q).exc.wdcount }
    dbg := { (a.seq q).dbg with bpSkip := false, defcnt := (t.seq q).dbg.defcnt, steps := (t.seq q).dbg.steps,
                                why := (t.seq q).dbg.why }
    dhalt := (t.seq q).dhalt }

/-- The instruction at PC answers a next state: from a, where its own effect is done, the words of its routine have issued
(`wordsOf` gives their number and the classes that R145 and R399 fix; the rest is free, log 34), and it has retired to the next
word. -/
def RunsTo (i : Instr) (q : SeqId) (s a : State) : Prop := Does i s (Retires q (a.routine q (wordsOf i)) ((s.regs q).pc + 4))

/-- A taken transfer: as `Retires`, with the queue flushed (R134), and a FLOW packet may have entered the trace FIFO (R382). -/
def Transfers (i : Instr) (q : SeqId) (s a : State) (pc : Half) : Prop :=
  Does i s (Retires q (((a.routine q (wordsOf i)).flow q (s.regs q).pc pc).modSeq q Seq.flush) pc)

/-- The instruction at PC holds from a, where what it starts is done: the words of its routine have issued, and nothing else
changes. -/
def HoldsAt (i : Instr) (q : SeqId) (s a : State) : Prop := exec i s = .next (a.routine q (wordsOf i))

/-- The words that have issued when an instruction raises a fault: its map read, and how many more is open (R145). -/
def wordsFault : Words := { first := [1], loose := true }

/-- Source register of a wide operation's command: an operation with an immediate, a count or no source has none. -/
def wideSrc (op : WideOp) (rs : BitVec 5) : BitVec 5 :=
  match op with
  | .shlW _ | .shrW _ | .asrW _ | .rolW _ | .rorW _ | .shlH _ | .shrH _ | .asrH _ | .rolH _ | .rorH _ => 0
  | .crci | .addiH _ | .addiW _ | .cmpiH _ | .cmpiW _ => 0
  | _ => rs

/-! ### Flags and results (R149, R159) -/

/-- ST after an operation: each flag as listed, or unchanged; every other bit unchanged. -/
def StIs (old new : Half) (z c n v p t : Option Bool) : Prop :=
  bit new 0 = z.getD (bit old 0) ∧ bit new 1 = c.getD (bit old 1) ∧ bit new 2 = n.getD (bit old 2) ∧
  bit new 3 = v.getD (bit old 3) ∧ bit new 4 = p.getD (bit old 4) ∧ bit new 5 = t.getD (bit old 5) ∧
  ∀ i, 6 ≤ i → bit new i = bit old i

/-- The sum of R149: the value modulo 2^w, carry out, signed overflow; Z chains with the old Z where `chain` says so. -/
def IsSum {w : Nat} (x y : BitVec w) (cin chain : Bool) (r : BitVec w) (old new : Half) : Prop :=
  r.toNat = (x.toNat + y.toNat + cin.toNat) % 2 ^ w ∧
  StIs old new (some (decide (r = 0) && (!chain || bit old 0))) (some (decide (2 ^ w ≤ x.toNat + y.toNat + cin.toNat)))
    (some r.msb) (some (decide (r.toInt ≠ x.toInt + y.toInt + cin.toNat))) none none

/-- The difference of R149: C is 1 on borrow. -/
def IsDiff {w : Nat} (x y : BitVec w) (bin chain : Bool) (r : BitVec w) (old new : Half) : Prop :=
  (r.toNat : Int) = (x.toNat - y.toNat - bin.toNat : Int) % 2 ^ w ∧
  StIs old new (some (decide (r = 0) && (!chain || bit old 0))) (some (decide (x.toNat < y.toNat + bin.toNat)))
    (some r.msb) (some (decide (r.toInt ≠ x.toInt - y.toInt - bin.toNat))) none none

/-- A result that sets Z and N. -/
def IsZN {w : Nat} (r : BitVec w) (old new : Half) : Prop :=
  StIs old new (some (decide (r = 0))) none (some r.msb) none none none

/-- C of a shift or rotate by n, which a count of 0 does not update. -/
def shiftC {w : Nat} (k : Shift) (x r : BitVec w) (n : Nat) : Option Bool :=
  if n = 0 then none else match k with
  | .shl => some (decide (n ≤ w) && x.getLsbD (w - n))
  | .shr => some (decide (n ≤ w) && x.getLsbD (n - 1))
  | .asr => some (if w ≤ n then x.msb else x.getLsbD (n - 1))
  | .rol => some (r.getLsbD 0)
  | .ror => some r.msb

/-- A shift or rotate: bit i of the result, and the flags (R149, R159). -/
def IsShift {w : Nat} (k : Shift) (x : BitVec w) (n : Nat) (r : BitVec w) (old new : Half) : Prop :=
  (∀ i, i < w → r.getLsbD i = match k with
    | .shl => decide (n ≤ i) && x.getLsbD (i - n)
    | .shr => x.getLsbD (i + n)
    | .asr => if i + n < w then x.getLsbD (i + n) else x.msb
    | .rol => x.getLsbD ((i + w - n % w) % w)
    | .ror => x.getLsbD ((i + n) % w)) ∧
  StIs old new (some (decide (r = 0))) (shiftC k x r n) (some r.msb) none none none

/-- One bit b of crc_step from the running value c to c', bit by bit (R160): the top bit leaves and the polynomial is added
where it differs from b, or, under REFIN, the low bit and the reflected polynomial. Bits at and above WIDTH are 0. -/
def IsCrcBit (p : Crcp) (b : Bool) (c c' : Word) : Prop :=
  ∀ i, c'.getLsbD i = (decide (i < p.width) &&
    if p.refin then (decide (i + 1 < p.width) && c.getLsbD (i + 1)) ^^ ((c.getLsbD 0 ^^ b) && p.poly.getLsbD (p.width - 1 - i))
    else (decide (0 < i) && c.getLsbD (i - 1)) ^^ ((c.getLsbD (p.width - 1) ^^ b) && p.poly.getLsbD i))

/-- The steps for a list of bits. -/
def IsCrcBits (p : Crcp) : List Bool → Word → Word → Prop
  | [], c, c' => c' = c
  | b :: bs, c, c' => ∃ d, IsCrcBit p b c d ∧ IsCrcBits p bs d c'

/-- r is the running value x after the bytes: each gives its bits 7 down to 0, or 0 up to 7 under REFIN; bits of x at and
above WIDTH are ignored (R160). -/
def IsCrc (p : Crcp) (x : Word) (bytes : List Byte) (r : Word) : Prop :=
  ∃ c, (∀ i, c.getLsbD i = (decide (i < p.width) && x.getLsbD i)) ∧
    IsCrcBits p (bytes.flatMap fun b => (List.range 8).map fun k => b.getLsbD (if p.refin then k else 7 - k)) c r

/-- The registers after W[RD], H[RD] or B[RD] took a value and ST became st. -/
def wroteW (r : Regs) (rd : BitVec 5) (x : Word) (st : Half) : Regs := { r.setW rd x with st := st }
def wroteH (r : Regs) (rd : BitVec 5) (x : Half) (st : Half) : Regs := { r.setH rd x with st := st }
def wroteB (r : Regs) (rd : BitVec 5) (x : Byte) (st : Half) : Regs := { r.setB rd x with st := st }

/-- A wide operation runs, and the registers become some r of which p holds; nothing else changes but what `RunsTo` names. -/
def WideDoes (q : SeqId) (op : WideOp) (rd rs : BitVec 5) (s : State) (p : Regs → Regs → Prop) : Prop :=
  ∃ r, RunsTo (wideInstr q op rd rs) q s ((fetched q s).modRegs q fun _ => r) ∧ p (s.regs q) r

/-! ### Accesses, entries and families of commands -/

/-- The offset of R152, and the registers once the addressing mode has changed A[RS]. -/
def OffsetIs (r : Regs) (f : FormR) (size : Nat) (off : Half) (r' : Regs) : Prop :=
  (f.minor = 0 ∧ off = r.A f.rs ∧ r' = r) ∨
  (f.minor = 1 ∧ off = r.A f.rs + r.H f.rx ∧ r' = r) ∨
  (f.minor = 2 ∧ off = r.A f.rs ∧ r' = r.setA f.rs (off + BitVec.ofNat 16 size)) ∨
  (f.minor = 3 ∧ off = r.A f.rs - BitVec.ofNat 16 size ∧ r' = r.setA f.rs off)

/-- The word at PC raises a fault e: it ends by the entry of e, made from a (R237). -/
def RaisesFrom (i : Instr) (q : SeqId) (s a : State) (e : Exn) : Prop :=
  Does i s fun t => t = (a.enter q (e.entry (s.regs q).pc)).modSeq q fun x => { x with dbg := { x.dbg with bpSkip := false } }

/-- The instruction at PC raises a fault e from a, once the words of its routine have issued. -/
def Raises (i : Instr) (q : SeqId) (s a : State) (e : Exn) : Prop := RaisesFrom i q s (a.routine q wordsFault) e

/-- The instruction at PC ends by an entry of its own. -/
def EndsByEntry (i : Instr) (q : SeqId) (s a : State) (e : Entry) : Prop :=
  Does i s fun t => t = ((a.routine q (wordsOf i)).enter q e).modSeq q fun x => { x with dbg := { x.dbg with bpSkip := false } }

/-- The checks of an entry pass and its accesses succeed (R237 steps 2, 3 and 5): from a, with its frame written, to b, where the
vector entry reads as h. -/
def EntryPasses (q : SeqId) (a : State) (e : Entry) (fa : Nat) (b : State) (h : Half) : Prop :=
  let short := e.kind == .trap
  let saved := putBit (if e.vec = 6 then putBit (a.regs q).st stFPP false else (a.regs q).st) stSHORT short
  frameCheck (a.regs q) (if short then 4 else 8) = .ok fa ∧
  ∃ va a1 v0 b1 v, vecCheck (a.regs q) e.vec = .ok va ∧ a.memRead q va 2 = .ok a1 v0 ∧
    a1.memWrite q fa (frameBytes saved e.framePc e.ecause e.eaddr short) = .ok b () ∧
    b.memRead q va 2 = .ok b1 v ∧ h = BitVec.ofNat 16 (ofLeBytes v)

/-- The loads and stores by the view they move. -/
def loadInstr (v : View) (q : SeqId) (f : FormR) : Instr :=
  match v with | .b => .ldb q f | .h => .ldh q f | .w => .ldw q f | .a => .lda q f
def storeInstr (v : View) (q : SeqId) (f : FormR) : Instr :=
  match v with | .b => .stb q f | .h => .sth q f | .w => .stw q f | .a => .sta q f

/-- An entry that changes neither mode's owner of the sequencer: the runtime does not end a work item by it (R400). -/
def KeepsItem (x : Seq) : Prop := x.regs.priv = true ∨ x.running = none

/-- The instruction at PC leaves its pool operation p in flight, takes the pool's port and retires (R211, R213, R398). -/
def Issues (i : Instr) (q : SeqId) (s : State) (p : PoolOp) : Prop :=
  RunsTo i q s ((fetched q s).poolGrant q p)

/-- The divider instruction at PC leaves its operation p in flight and holds until that lands (R210, R212). -/
def Divides (i : Instr) (q : SeqId) (s : State) (p : PoolOp) : Prop :=
  HoldsAt i q s ((fetched q s).poolGrant q p .pool)

/-- The sequencer exists, its gallery's logic is on and it issues. -/
def Issuing (s : State) (q : SeqId) : Prop := s.alive q = true ∧ (s.seq q).issues = true

/-- From a, in which the cc of the wait have been spent, sequencer q has left its wait and retired to pc. -/
def WaitOver (q : SeqId) (a : State) (pc : Half) (t : State) : Prop :=
  Retires q (a.modSeq q fun x => { x with wait := .none }) pc t

/-- A set but for the places of its images in the MPSTG region, which the MP chooses (log 90). -/
def Machine.ImgSet.unplaced (m : ImgSet) : ImgSet :=
  let at0 (p : ImgPart) : ImgPart := { p with place := 0 }
  { af := m.af.map at0, lic := m.lic.map at0, afmap := m.afmap.map at0, licmap := m.licmap.map at0 }

/-! ### Stream instructions and the digest -/

/-- The long instruction as it begins: nothing latched yet (R175, R200). -/
def freshLong (k : LongKind) (v : Bool) (f : FormS) (r : Regs) : LongOp :=
  { kind := k, v := v, f := f, base := r.wd f }

/-- The registers at the end of a long instruction: the listed flags, and RES clear (R177). -/
def endRegs (r : Regs) (fl : Flags) : Regs := { r.flags fl with st := putBit (r.flags fl).st stRES false }

/-- Sequencer q is at a step of l, whose table is latched and which has no chunk writes open, with no cause of BOUND pending. -/
def AtStep (s : State) (q : SeqId) (l : LongOp) : Prop :=
  Issuing s q ∧ (s.seq q).wait = .long l ∧ (s.seq q).bound = false ∧ l.loaded = true ∧ l.chunks = [] ∧ l.ahead = 0 ∧
  l.longAt = none

/-- A step has left the registers r and memory m, and the instruction has ended with the listed flags: RES clears and it
retires (R177). One word of the step's class has issued (R175). -/
def StepEnds (s : State) (q : SeqId) (cls : BitVec 4) (r : Regs) (fl : Flags) (m : Memory) (t : State) : Prop :=
  t.mem = m ∧ (t.seq q).bud = (s.spent q [cls] 0).1 ∧ (∀ p, p ≠ q → (t.seq p).regs = (s.seq p).regs) ∧
  (t.seq q).wait = .none ∧ t.regs q = { endRegs r fl with pc := r.pc + 4 }

/-- A step has left the registers r and memory m: with something left to cover the instruction, now l, waits for its next
step, else it ends with the listed flags (R175, R177). -/
def Stepped (s : State) (q : SeqId) (cls : BitVec 4) (l : LongOp) (r : Regs) (fl : Flags) (m : Memory) (t : State) : Prop :=
  (l.remaining r = 0 → StepEnds s q cls r fl m t) ∧
  (l.remaining r ≠ 0 → t.mem = m ∧ (t.seq q).bud = (s.spent q [cls] 0).1 ∧ (∀ p, p ≠ q → (t.seq p).regs = (s.seq p).regs) ∧
    t.regs q = r ∧ (t.seq q).wait = .long l)

/-- The table of HASHS after the first c windows from address a, each read as memory then stands (R196): b bits of hash,
table at tab, the source offset of the first window off. -/
def hashTable (b tab a off : Nat) (m : Memory) : Nat → Memory
  | 0 => m
  | c + 1 =>
    let m := hashTable b tab a off m c
    let h := (ofLeBytes (m.readBytes (a + c) 4) * 0x6F4A7C15) % 2 ^ 32 / 2 ^ (32 - b)
    m.writeBytes (tab + 2 * h) (leBytes 2 (off + c))

/-- A DGST.C has retired with an outcome code: Wd[31:24] takes it, Z tells whether it is 0, RES clears (R286). -/
def DgstRetires (q : SeqId) (f : FormS) (s t : State) (code : BitVec 4) : Prop :=
  t.regs q = { (s.regs q).setW f.rd (((s.regs q).W f.rd &&& 0x00FFFFFF) ||| (code.setWidth 32 <<< 24)) with
    pc := (s.regs q).pc + 4, st := (t.regs q).st } ∧
  bit (t.regs q).st stZ = decide (code = 0) ∧ bit (t.regs q).st stRES = false ∧ (t.seq q).wait = .none

/-- Wd names operation `code` with a defined control word (R199). -/
def ControlWord (wd : Word) (code : Nat) : Prop :=
  wd.extractLsb' 24 8 = 0 ∧ wd.extractLsb' 13 3 = 0 ∧ wd.toNat % 256 = code ∧
  (code = 1 → 1 ≤ wd.toNat / 256 % 16 ∧ wd.toNat / 256 % 16 ≤ 3)

end Sys2Proof
end

