-- ==== Sys2Proof/Certificates/Slice0/Obligations.lean ====
section
/-!
DEFINITION. The statements: what the manual's rules say each command does. A statement about an instruction of a sequencer
is made from the state `fetched q s`, after the word has been fetched, and `RunsTo` says that nothing changes but what the
statement names, the PC, the bookkeeping of a retirement, and the budgets that the words of its routine use (log 34).
-/

section

open Sys2Proof Sys2Proof.Machine

/-! ### The block -/

/-- The command at the front of the queue runs on the state with the queue's rest; an empty queue changes nothing (the
model's choice, log 1). -/
def Obligations.StepTakesTheFront : Prop :=
  (∀ (c : Instr) (rest : List Instr) (s : State), s.pending = c :: rest → step s = exec c { s with pending := rest }) ∧
  ∀ s : State, s.pending = [] → step s = .next s

/-! ### Registers and flags -/

/-- R122: the composition of the views, what a write through each view changes, and what a read gives after it. -/
def Obligations.RegisterViews : Prop :=
  ∀ (r : Regs) (n m : BitVec 5),
    r.H n = r.B (2 * n + 1) ++ r.B (2 * n) ∧
    r.W n = r.H (2 * n + 1) ++ r.H (2 * n) ∧
    (∀ v : Byte, (r.setB n v).B m = if m = n then v else r.B m) ∧
    (∀ v : Half, (r.setH n v).B m =
      if m = 2 * n then v.extractLsb' 0 8 else if m = 2 * n + 1 then v.extractLsb' 8 8 else r.B m) ∧
    (∀ v : Word, (r.setW n v).B m =
      if m = 4 * n then v.extractLsb' 0 8 else if m = 4 * n + 1 then v.extractLsb' 8 8
      else if m = 4 * n + 2 then v.extractLsb' 16 8 else if m = 4 * n + 3 then v.extractLsb' 24 8 else r.B m) ∧
    (∀ v : Byte, (r.setB n v).B n = v) ∧ (∀ v : Half, (r.setH n v).H n = v) ∧ ∀ v : Word, (r.setW n v).W n = v

/-- Every wide operation, at a boundary where it can run, retires: only its destination's bytes, ST[5:0] (T never, P only by
PAR), the PC and the budgets differ, and memory and every other register are as before. CRCI, CRCB.W, CRCH, CRCW and CRCF give
the values of R160 from the CRC parameters, with bits [31:WIDTH] zero, and set Z where the result is 0. -/
def Obligations.WideOperationsRetire : Prop :=
  ∀ (q : SeqId) (op : WideOp) (rd rs : BitVec 5) (s : State), canRun q (wideTouch op rd (wideSrc op rs)) s = true →
    WideDoes q op rd rs s fun old r =>
      r = { old with b := r.b, st := r.st } ∧
      (∀ n, bit (viewBytes (match op with
        | .parW | .parH | .clzW => .b
        | .addW | .adcW | .subW | .sbcW | .cmpW | .andW | .orW | .xorW | .andnW | .notW | .negW | .shlW _ | .shrW _ | .asrW _
        | .rolW _ | .rorW _ | .brevW | .sextW | .zextW | .crci | .crcbW | .crcH | .crcW | .crcF | .addiW _ | .cmpiW _ => .w
        | _ => .h) rd) n.toNat = false → r.B n = old.B n) ∧
      (∀ i, 6 ≤ i → bit r.st i = bit old.st i) ∧ bit r.st 5 = bit old.st 5 ∧
      (op ≠ .parW → op ≠ .parH → bit r.st 4 = bit old.st 4) ∧
      (op = .crci ∨ op = .crcbW ∨ op = .crcH ∨ op = .crcW ∨ op = .crcF →
        let p := old.crc
        let w := p.width
        let x := r.W rd
        StIs old.st r.st (some (decide (x = 0))) none none none none none ∧ r = wroteW old rd x r.st ∧
        (op = .crci → wideInstr q op rd rs = .crci q rd ∧
          ∀ i, x.getLsbD i = (decide (i < w) && p.init.getLsbD (if p.refin then w - 1 - i else i))) ∧
        (op = .crcbW → wideInstr q op rd rs = .crcbW q rd rs ∧ IsCrc p (old.W rd) [old.B rs] x) ∧
        (op = .crcH → wideInstr q op rd rs = .crch q rd rs ∧
          IsCrc p (old.W rd) [(old.H rs).extractLsb' 0 8, (old.H rs).extractLsb' 8 8] x) ∧
        (op = .crcW → wideInstr q op rd rs = .crcw q rd rs ∧
          IsCrc p (old.W rd) ((List.range 4).map fun k => (old.W rs).extractLsb' (8 * k) 8) x) ∧
        (op = .crcF → wideInstr q op rd rs = .crcf q rd rs ∧ ∀ i, x.getLsbD i = (decide (i < w) &&
          ((old.W rs).getLsbD (if p.refin ≠ p.refout then w - 1 - i else i) ^^ p.xorout.getLsbD i))))

/-- The additions, subtractions, compares and negations of R158 with the flags of R149 at their width; ADC and SBC chain Z;
a compare writes no register. -/
def Obligations.WideSumsAndDifferences : Prop :=
  ∀ (q : SeqId) (rd rs : BitVec 5) (imm : Byte) (s : State),
    (canRun q (wideTouch .addW rd rs) s = true →
      (WideDoes q .addW rd rs s fun o r => ∃ x st, r = wroteW o rd x st ∧ IsSum (o.W rd) (o.W rs) false false x o.st st) ∧
      (WideDoes q .adcW rd rs s fun o r => ∃ x st, r = wroteW o rd x st ∧ IsSum (o.W rd) (o.W rs) o.c true x o.st st) ∧
      (WideDoes q .subW rd rs s fun o r => ∃ x st, r = wroteW o rd x st ∧ IsDiff (o.W rd) (o.W rs) false false x o.st st) ∧
      (WideDoes q .sbcW rd rs s fun o r => ∃ x st, r = wroteW o rd x st ∧ IsDiff (o.W rd) (o.W rs) o.c true x o.st st) ∧
      (WideDoes q .cmpW rd rs s fun o r => ∃ x st, r = { o with st := st } ∧ IsDiff (o.W rd) (o.W rs) false false x o.st st) ∧
      (WideDoes q .negW rd rs s fun o r => ∃ x st, r = wroteW o rd x st ∧ IsDiff 0 (o.W rs) false false x o.st st)) ∧
    (canRun q (wideTouch .addH rd rs) s = true →
      (WideDoes q .addH rd rs s fun o r => ∃ x st, r = wroteH o rd x st ∧ IsSum (o.H rd) (o.H rs) false false x o.st st) ∧
      (WideDoes q .adcH rd rs s fun o r => ∃ x st, r = wroteH o rd x st ∧ IsSum (o.H rd) (o.H rs) o.c true x o.st st) ∧
      (WideDoes q .subH rd rs s fun o r => ∃ x st, r = wroteH o rd x st ∧ IsDiff (o.H rd) (o.H rs) false false x o.st st) ∧
      (WideDoes q .sbcH rd rs s fun o r => ∃ x st, r = wroteH o rd x st ∧ IsDiff (o.H rd) (o.H rs) o.c true x o.st st) ∧
      (WideDoes q .cmpH rd rs s fun o r => ∃ x st, r = { o with st := st } ∧ IsDiff (o.H rd) (o.H rs) false false x o.st st) ∧
      (WideDoes q .negH rd rs s fun o r => ∃ x st, r = wroteH o rd x st ∧ IsDiff 0 (o.H rs) false false x o.st st)) ∧
    (canRun q (wideTouch (.addiW imm) rd 0) s = true →
      (WideDoes q (.addiW imm) rd 0 s fun o r => ∃ x st, r = wroteW o rd x st ∧
        IsSum (o.W rd) (imm.signExtend 32) false false x o.st st) ∧
      (WideDoes q (.cmpiW imm) rd 0 s fun o r => ∃ x st, r = { o with st := st } ∧
        IsDiff (o.W rd) (imm.signExtend 32) false false x o.st st)) ∧
    (canRun q (wideTouch (.addiH imm) rd 0) s = true →
      (WideDoes q (.addiH imm) rd 0 s fun o r => ∃ x st, r = wroteH o rd x st ∧
        IsSum (o.H rd) (imm.signExtend 16) false false x o.st st) ∧
      (WideDoes q (.cmpiH imm) rd 0 s fun o r => ∃ x st, r = { o with st := st } ∧
        IsDiff (o.H rd) (imm.signExtend 16) false false x o.st st))

/-- The logical and bit operations of R158: each bit of the result; Z and N from it, P for PAR, Z from the source for CLZ. -/
def Obligations.WideBitOperations : Prop :=
  ∀ (q : SeqId) (rd rs : BitVec 5) (s : State),
    (canRun q (wideTouch .andW rd rs) s = true →
      (WideDoes q .andW rd rs s fun o r => ∃ x st, r = wroteW o rd x st ∧ IsZN x o.st st ∧
        ∀ i, x.getLsbD i = ((o.W rd).getLsbD i && (o.W rs).getLsbD i)) ∧
      (WideDoes q .orW rd rs s fun o r => ∃ x st, r = wroteW o rd x st ∧ IsZN x o.st st ∧
        ∀ i, x.getLsbD i = ((o.W rd).getLsbD i || (o.W rs).getLsbD i)) ∧
      (WideDoes q .xorW rd rs s fun o r => ∃ x st, r = wroteW o rd x st ∧ IsZN x o.st st ∧
        ∀ i, x.getLsbD i = ((o.W rd).getLsbD i ^^ (o.W rs).getLsbD i)) ∧
      (WideDoes q .andnW rd rs s fun o r => ∃ x st, r = wroteW o rd x st ∧ IsZN x o.st st ∧
        ∀ i, x.getLsbD i = ((o.W rd).getLsbD i && !(o.W rs).getLsbD i)) ∧
      (WideDoes q .notW rd rs s fun o r => ∃ x st, r = wroteW o rd x st ∧ IsZN x o.st st ∧
        ∀ i, i < 32 → x.getLsbD i = !(o.W rs).getLsbD i) ∧
      (WideDoes q .brevW rd rs s fun o r => ∃ x st, r = wroteW o rd x st ∧ IsZN x o.st st ∧
        ∀ i, i < 32 → x.getLsbD i = (o.W rs).getLsbD (31 - i))) ∧
    (canRun q (wideTouch .andH rd rs) s = true →
      (WideDoes q .andH rd rs s fun o r => ∃ x st, r = wroteH o rd x st ∧ IsZN x o.st st ∧
        ∀ i, x.getLsbD i = ((o.H rd).getLsbD i && (o.H rs).getLsbD i)) ∧
      (WideDoes q .orH rd rs s fun o r => ∃ x st, r = wroteH o rd x st ∧ IsZN x o.st st ∧
        ∀ i, x.getLsbD i = ((o.H rd).getLsbD i || (o.H rs).getLsbD i)) ∧
      (WideDoes q .xorH rd rs s fun o r => ∃ x st, r = wroteH o rd x st ∧ IsZN x o.st st ∧
        ∀ i, x.getLsbD i = ((o.H rd).getLsbD i ^^ (o.H rs).getLsbD i)) ∧
      (WideDoes q .notH rd rs s fun o r => ∃ x st, r = wroteH o rd x st ∧ IsZN x o.st st ∧
        ∀ i, i < 16 → x.getLsbD i = !(o.H rs).getLsbD i) ∧
      (WideDoes q .brevH rd rs s fun o r => ∃ x st, r = wroteH o rd x st ∧ IsZN x o.st st ∧
        ∀ i, i < 16 → x.getLsbD i = (o.H rs).getLsbD (15 - i)) ∧
      (WideDoes q .swapbH rd rs s fun o r => ∃ x st, r = wroteH o rd x st ∧ IsZN x o.st st ∧
        x = (o.H rs).extractLsb' 0 8 ++ (o.H rs).extractLsb' 8 8)) ∧
    (canRun q (wideTouch .sextH rd rs) s = true →
      (WideDoes q .sextH rd rs s fun o r => ∃ x st, r = wroteH o rd x st ∧ IsZN x o.st st ∧ x.toInt = (o.B rs).toInt) ∧
      (WideDoes q .zextH rd rs s fun o r => ∃ x st, r = wroteH o rd x st ∧ IsZN x o.st st ∧ x.toNat = (o.B rs).toNat)) ∧
    (canRun q (wideTouch .sextW rd rs) s = true →
      (WideDoes q .sextW rd rs s fun o r => ∃ x st, r = wroteW o rd x st ∧ IsZN x o.st st ∧ x.toInt = (o.H rs).toInt) ∧
      (WideDoes q .zextW rd rs s fun o r => ∃ x st, r = wroteW o rd x st ∧ IsZN x o.st st ∧ x.toNat = (o.H rs).toNat)) ∧
    (canRun q (wideTouch .parW rd rs) s = true →
      WideDoes q .parW rd rs s fun o r => ∃ st, r = wroteB o rd (ofB 8 (parity (o.W rs))) st ∧
        StIs o.st st (some (!parity (o.W rs))) none (some false) none (some (parity (o.W rs))) none) ∧
    (canRun q (wideTouch .parH rd rs) s = true →
      WideDoes q .parH rd rs s fun o r => ∃ st, r = wroteB o rd (ofB 8 (parity (o.H rs))) st ∧
        StIs o.st st (some (!parity (o.H rs))) none (some false) none (some (parity (o.H rs))) none) ∧
    (canRun q (wideTouch .clzW rd rs) s = true →
      WideDoes q .clzW rd rs s fun o r => ∃ (x : Byte) (st : Half), r = wroteB o rd x st ∧
        StIs o.st st (some (decide (o.W rs = 0))) none none none none none ∧ x.toNat ≤ 32 ∧
        (∀ i, 32 - x.toNat ≤ i → (o.W rs).getLsbD i = false) ∧ (x.toNat < 32 → (o.W rs).getLsbD (31 - x.toNat) = true))

/-- The shifts and rotates of R158 by an immediate or register count, with the flags of R149 and R159: an H form uses
four bits of the count; a count of 0 leaves the value and C. -/
def Obligations.WideShiftsAndRotates : Prop :=
  ∀ (q : SeqId) (rd : BitVec 5) (n : ShiftCount) (s : State),
    let count (r : Regs) : Nat := match n with | .imm k => k.toNat | .reg rs => (r.B rs).toNat % 32
    (canRun q (wideTouch (.shlW n) rd 0) s = true → ∀ op k, (op, k) ∈
        [(WideOp.shlW n, Shift.shl), (.shrW n, .shr), (.asrW n, .asr), (.rolW n, .rol), (.rorW n, .ror)] →
      WideDoes q op rd 0 s fun o r => ∃ x st, r = wroteW o rd x st ∧ IsShift k (o.W rd) (count o) x o.st st) ∧
    (canRun q (wideTouch (.shlH n) rd 0) s = true → ∀ op k, (op, k) ∈
        [(WideOp.shlH n, Shift.shl), (.shrH n, .shr), (.asrH n, .asr), (.rolH n, .rol), (.rorH n, .ror)] →
      WideDoes q op rd 0 s fun o r => ∃ x st, r = wroteH o rd x st ∧ IsShift k (o.H rd) (count o % 16) x o.st st)

/-! ### Memory, moves and the stack -/

/-- The access check of R135 in its written order: when it passes, and the engine address it gives; R137: the registers of
a failure. -/
def Obligations.AccessCheck : Prop :=
  ∀ (r : Regs) (n : BitVec 3) (off size : Nat) (k : Kind) (a : Nat),
    let d := r.seg n
    (r.check n off size k = .ok a ↔
      Desc.typ d ≠ 0 ∧ (Desc.window d = true → k.isStream = true) ∧ (k = .exec → Desc.typ d = 1) ∧ (k = .hold → Desc.typ d = 6) ∧
      (Desc.isP d = true → r.priv = true) ∧
      (r.priv = false → (Desc.typ d = 1 ∨ Desc.typ d = 2 ∨ Desc.typ d = 3 ∨ Desc.typ d = 6) →
        ∀ o, placeOf (Desc.first d) ≠ .ctx o) ∧
      (k.needsR = true → Desc.canR d = true) ∧ (k.needsW = true → Desc.canW d = true) ∧ (k = .exec → Desc.canX d = true) ∧
      ((k = .read ∨ k = .write) → size = 2 → off % 2 = 0) ∧
      ((k = .read ∨ k = .write ∨ k = .exec ∨ k = .hold) → size = 4 → off % 4 = 0) ∧
      (k.isDesc = true → off % 16 = 0) ∧ off + size - 1 ≤ Desc.extent d ∧ a = Desc.base d * 16 + off) ∧
    ∀ e, r.check n off size k = .error e → e.seg = n ∧ (e.vec = 2 ∧ (e.cause = 0x10 ∨ e.cause = 0x11) ∨
        e.vec = 4 ∧ (e.cause = 0x30 ∨ e.cause = 0x31 ∨ e.cause = 0x32)) ∧
      e.eaddr = if k.isStream = true ∧ Desc.window d = true then BitVec.ofNat 16 (off / 0x10000) else BitVec.ofNat 16 off

/-- A scratch access by a sequencer: a read of awake banks without an uncorrectable codeword gives memory's bytes and leaves
memory, a write stores its bytes and leaves every other byte; the tie rotor of that side of the bank moves past the requester,
which in another gallery is the fabric agent (R153, R253, R255, R351, R398). -/
def Obligations.ScratchAccess : Prop :=
  ∀ (s : State) (q : SeqId) (a n : Nat) (bs : List Byte) (g : GalId) (off : Nat),
    placeOf a = .scratch g off → s.door q g = .open → (s.gal g).bankAwake (bankOf off) = true →
    ((s.gal g).bankAwake (bankOf (off + n - 1)) = true → s.poisoned a n = false →
      ∃ t, s.memRead q a n = .ok t (s.mem.readBytes a n) ∧ t = { s with gals := t.gals, ecc := t.ecc } ∧
        (t.gal g).rdRotor[bankOf off].val = (if galOf q = g then (idxOf q).val + 1 else 0) ∧ ∀ h, h ≠ g → t.gal h = s.gal h) ∧
    ((s.gal g).bankAwake (bankOf (off + bs.length - 1)) = true →
      ∃ t, s.memWrite q a bs = .ok t () ∧ (MemOk s → Stored s t a bs) ∧ t = { s with mem := t.mem, gals := t.gals, ecc := t.ecc } ∧
        (t.gal g).wrRotor[bankOf off].val = (if galOf q = g then (idxOf q).val + 1 else 0) ∧ ∀ h, h ≠ g → t.gal h = s.gal h)

/-- LDB, LDH, LDW and LDA (R152, R153): where the check and the read succeed, the register takes the bytes, little-endian,
A[RS] changes as the addressing mode says, a loaded A register stands, and no flag and no memory byte changes. -/
def Obligations.LoadsComplete : Prop :=
  ∀ (v : View) (q : SeqId) (f : FormR) (s a : State) (off : Half) (r : Regs) (ea : Nat) (bs : List Byte),
    canRun q (lsTouch v f) s = true → OffsetIs (s.regs q) f v.size off r →
    (s.regs q).check f.segn off.toNat v.size .read = .ok ea → (fetched q s).memRead q ea v.size = .ok a bs →
    RunsTo (loadInstr v q f) q s (a.modRegs q fun _ => r.setView v f.rd (ofLeBytes bs))

/-- STB, STH, STW and STA (R152, R153): the bytes of the data register as it stood go to the checked address, every other
byte of memory reads as before, and of the registers only A[RS] may change. -/
def Obligations.StoresComplete : Prop :=
  ∀ (v : View) (q : SeqId) (f : FormR) (s a : State) (off : Half) (r : Regs) (ea : Nat),
    canRun q (lsTouch v f) s = true → OffsetIs (s.regs q) f v.size off r →
    (s.regs q).check f.segn off.toNat v.size .write = .ok ea →
    (fetched q s).memWrite q ea (leBytes v.size ((s.regs q).view v f.rd)) = .ok a () →
    RunsTo (storeInstr v q f) q s (a.modRegs q fun _ => r) ∧
    (MemOk s → ∀ g o, placeOf ea = .scratch g o → Stored (fetched q s) a ea (leBytes v.size ((s.regs q).view v f.rd)))

/-- A load or store whose check fails raises that fault, and a MINOR above 3 is ILLEGAL with cause 0x02: neither a register
nor memory changes before the entry. -/
def Obligations.LoadsAndStoresFault : Prop :=
  ∀ (v : View) (q : SeqId) (f : FormR) (s : State) (off : Half) (r : Regs) (e : Exn), canRun q (lsTouch v f) s = true →
    (OffsetIs (s.regs q) f v.size off r → (s.regs q).check f.segn off.toNat v.size .read = .error e →
      Raises (loadInstr v q f) q s (fetched q s) e) ∧
    (OffsetIs (s.regs q) f v.size off r → (s.regs q).check f.segn off.toNat v.size .write = .error e →
      Raises (storeInstr v q f) q s (fetched q s) e) ∧
    (3 < f.minor.toNat → Raises (loadInstr v q f) q s (fetched q s) (illegal (s.regs q).pc 0x02) ∧
      Raises (storeInstr v q f) q s (fetched q s) (illegal (s.regs q).pc 0x02))

/-- PUSH and POP (R157, R163) through the selected S7: SP moves by the size, the register's bytes are stored below SP or
loaded at SP. -/
def Obligations.StackMovesComplete : Prop :=
  ∀ (v : View) (m : BitVec 4) (q : SeqId) (rd : BitVec 5) (s a : State) (ea : Nat) (bs : List Byte),
    (m, v) ∈ [((0 : BitVec 4), View.b), (1, .h), (2, .w), (3, .a)] → canRun q (tView v rd) s = true →
    let r := s.regs q
    let data := leBytes v.size (r.view v rd)
    (v.size ≤ r.selSp.toNat → r.check 7 (r.selSp.toNat - v.size) v.size .write = .ok ea →
      (fetched q s).memWrite q ea data = .ok a () →
      RunsTo (.push q m rd) q s (a.modRegs q fun r => r.setSelSp (r.selSp - BitVec.ofNat 16 v.size)) ∧
      (MemOk s → ∀ g o, placeOf ea = .scratch g o → Stored (fetched q s) a ea data)) ∧
    (r.check 7 r.selSp.toNat v.size .read = .ok ea → (fetched q s).memRead q ea v.size = .ok a bs →
      RunsTo (.pop q m rd) q s (a.modRegs q fun r =>
        (r.setSelSp (r.selSp + BitVec.ofNat 16 v.size)).setView v rd (ofLeBytes bs)))

/-- MOVL and LEA (R154, R157): the destination of each MINOR takes its value, and no flag changes; another MINOR is ILLEGAL. -/
def Obligations.MovesComplete : Prop :=
  ∀ (q : SeqId) (f : FormRI) (s : State),
    let r := s.regs q
    let goes (i : Instr) (r' : Regs) : Prop := RunsTo i q s ((fetched q s).modRegs q fun _ => r')
    (canRun q (movlTouch f) s = true →
      (f.minor = 0 → goes (.movl q f) (r.setH f.rd (r.H f.rs))) ∧ (f.minor = 1 → goes (.movl q f) (r.setW f.rd (r.W f.rs))) ∧
      (f.minor = 2 → goes (.movl q f) (r.setA f.rd (r.H f.rs))) ∧ (f.minor = 3 → goes (.movl q f) (r.setH f.rd (r.A f.rs))) ∧
      (f.minor = 4 → goes (.movl q f) (r.setA f.rd (r.A f.rs))) ∧
      (f.minor = 5 → goes (.movl q f) (r.setH f.rd (f.imm.signExtend 16))) ∧
      (f.minor = 6 → goes (.movl q f) (r.setA f.rd (f.imm.signExtend 16))) ∧
      (f.minor = 7 → goes (.movl q f) (r.setH f.rd (f.imm ++ (r.H f.rd).extractLsb' 0 8))) ∧
      (f.minor = 8 → goes (.movl q f) (r.setA f.rd (f.imm ++ (r.A f.rd).extractLsb' 0 8))) ∧
      (8 < f.minor.toNat → Raises (.movl q f) q s (fetched q s) (illegal r.pc 0x02))) ∧
    (canRun q (if f.minor = 1 then tH f.rx else tNone) s = true →
      (f.minor = 0 → goes (.lea q f) (r.setA f.rd (r.A f.rs + f.imm.signExtend 16))) ∧
      (f.minor = 1 → goes (.lea q f) (r.setA f.rd (r.A f.rs + r.H f.rx))) ∧
      (1 < f.minor.toNat → Raises (.lea q f) q s (fetched q s) (illegal r.pc 0x02)))

/-- MOVX (R125 to R128, R130, R131, R155): the value of each readable number, zero-extended, into W[RD]; W[RS] into each
writable number by its writable bits. An unassigned number, a write to PC, CTXID or SEQN, and a nonzero IMM8[7:5] are ILLEGAL
with cause 0x07, another MINOR is ILLEGAL with cause 0x02, and a number of the runtime in program mode raises PRIV. -/
def Obligations.SpecialRegisterMoves : Prop :=
  ∀ (q : SeqId) (f : FormRI) (s : State), canRun q (movxTouch f) s = true →
    let r := s.regs q
    let n := f.imm.toNat
    let assigned := n ≤ 0x0A ∨ 0x10 ≤ n ∧ n ≤ 0x15
    let readOnly := n = 0x05 ∨ n = 0x0A ∨ n = 0x15
    let may := assigned ∧ (0x10 ≤ n → r.priv = true)
    let reads (k : Nat) (v : Word) : Prop :=
      n = k → RunsTo (.movx q f) q s ((fetched q s).modRegs q fun _ => r.setW f.rd v)
    (f.minor = 0 → may →
      reads 0x00 (r.st.setWidth 32) ∧ reads 0x01 r.fpc ∧ reads 0x02 (r.mr.extractLsb' 0 32) ∧ reads 0x03 (r.mr.extractLsb' 32 32) ∧
      reads 0x04 (r.selSp.setWidth 32) ∧ reads 0x05 (r.pc.setWidth 32) ∧ reads 0x06 r.crc.cfg ∧ reads 0x07 r.crc.poly ∧
      reads 0x08 r.crc.init ∧ reads 0x09 r.crc.xorout ∧ reads 0x0A (r.ctxid.setWidth 32) ∧ reads 0x10 (r.vbr.setWidth 32) ∧
      reads 0x11 (r.ecause.setWidth 32) ∧ reads 0x12 (r.eaddr.setWidth 32) ∧ reads 0x13 (r.lsp.setWidth 32) ∧
      reads 0x14 (r.sp.setWidth 32) ∧ reads 0x15 (BitVec.ofNat 32 q.val)) ∧
    (f.minor = 1 → may → ¬readOnly →
      ∃ r', RunsTo (.movx q f) q s ((fetched q s).modRegs q fun _ => r') ∧
        (n = 0x00 → r' = { r with st := r'.st } ∧ ∀ i, bit r'.st i =
          if i < 6 ∨ i = 10 ∨ (i = 11 ∧ r.priv = true) then bit (r.W f.rs) i else bit r.st i) ∧
        (n = 0x01 → r' = { r with fpc := r'.fpc } ∧
          r'.fpc.extractLsb' 0 3 = (if 4 < (r.W f.rs).toNat % 8 then 0 else (r.W f.rs).extractLsb' 0 3) ∧
          ∀ i, 3 ≤ i → bit r'.fpc i = if (8 ≤ i ∧ i ≤ 12) ∨ (16 ≤ i ∧ i ≤ 20) ∨ i = 29 ∨ i = 30 then bit (r.W f.rs) i
            else if 24 ≤ i ∧ i ≤ 28 then bit r.fpc i else false) ∧
        (n = 0x02 → r' = { r with mr := r.mr.extractLsb' 32 32 ++ r.W f.rs }) ∧
        (n = 0x03 → r' = { r with mr := r.W f.rs ++ r.mr.extractLsb' 0 32 }) ∧
        (n = 0x04 → r' = r.setSelSp ((r.W f.rs).setWidth 16)) ∧
        (n = 0x06 → r' = { r with crc := { r.crc with cfg := r'.crc.cfg } } ∧
          (∀ i, 6 ≤ i → bit r'.crc.cfg i = (decide (i < 8) && bit (r.W f.rs) i)) ∧
          let w := (r.W f.rs).toNat % 64
          r'.crc.width = if w = 0 ∨ 32 < w then 32 else w) ∧
        (n = 0x07 → r' = { r with crc := { r.crc with poly := r.W f.rs } }) ∧
        (n = 0x08 → r' = { r with crc := { r.crc with init := r.W f.rs } }) ∧
        (n = 0x09 → r' = { r with crc := { r.crc with xorout := r.W f.rs } }) ∧
        (n = 0x10 → r' = { r with vbr := (r.W f.rs).setWidth 16 &&& 0xFF80 }) ∧
        (n = 0x11 → r' = { r with ecause := (r.W f.rs).setWidth 16 &&& 0x07FF }) ∧
        (n = 0x12 → r' = { r with eaddr := (r.W f.rs).setWidth 16 }) ∧
        (n = 0x13 → r' = { r with lsp := r'.lsp } ∧ (0x40 < (r.W f.rs).toNat % 256 → r'.lsp = 0x40) ∧
          ((r.W f.rs).toNat % 256 ≤ 0x40 → ∀ i, bit r'.lsp i = (decide (1 ≤ i ∧ i ≤ 6) && bit (r.W f.rs) i))) ∧
        (n = 0x14 → r' = { r with sp := (r.W f.rs).setWidth 16 })) ∧
    (f.minor.toNat ≤ 1 → (¬assigned ∨ f.minor = 1 ∧ readOnly) → Raises (.movx q f) q s (fetched q s) (illegal r.pc 0x07)) ∧
    (1 < f.minor.toNat → Raises (.movx q f) q s (fetched q s) (illegal r.pc 0x02)) ∧
    (f.minor.toNat ≤ 1 → ¬(f.minor = 1 ∧ readOnly) → 0x10 ≤ n → n ≤ 0x15 → r.priv = false →
      Raises (.movx q f) q s (fetched q s) (privFault r.pc))

/-- SLD and SST in runtime mode (R133, R134, R156): a descriptor that passes sld_check is loaded into the selected or the program
copy, and a load of the S0 in use flushes the instruction queue; the stored descriptor has bits 127 to 72 as 0. A failed
sld_check raises SEGFLT with its cause. -/
def Obligations.SegmentMovesComplete : Prop :=
  ∀ (q : SeqId) (f : FormR) (s a : State) (off : Half) (r' : Regs) (ea : Nat) (bs : List Byte),
    canRun q (sldTouch f) s = true → f.minor.toNat ≤ 1 → (s.regs q).priv = true →
    let r := s.regs q
    let n := f.rd.extractLsb' 0 3
    let copy := bit f.rd 3
    (copy = true → n = 0 ∨ n = 7) → OffsetIs r f 16 off r' →
    (r.check f.segn off.toNat 16 .descR = .ok ea → (fetched q s).memRead q ea 16 = .ok a bs →
      let d : Desc := BitVec.ofNat 128 (ofLeBytes bs)
      (sldCheck n d = none → RunsTo (.sld q f) q s
        (if copy = true ∨ (n ≠ 0 ∧ n ≠ 7) then a.modRegs q fun r => { r with s := r.s.set n.toNat d (by have := n.isLt; omega) }
        else if n = 0 then (a.modRegs q fun r => { r with s0r := d }).modSeq q Seq.flush
        else a.modRegs q fun r => { r with s7r := d })) ∧
      (∀ c, sldCheck n d = some c → Raises (.sld q f) q s a { vec := 4, cause := c, seg := n, eaddr := off })) ∧
    (r.check f.segn off.toNat 16 .descW = .ok ea →
      ∀ d, d = (if copy = true ∨ (n ≠ 0 ∧ n ≠ 7) then r.s[n.toNat]'(by have := n.isLt; omega) else if n = 0 then r.s0r else r.s7r) →
      (fetched q s).memWrite q ea (leBytes 16 (d &&& BitVec.ofNat 128 (2 ^ 72 - 1)).toNat) = .ok a () →
      RunsTo (.sst q f) q s a)

/-! ### Control transfers and entries -/

/-- JMP, JMPA, LOOP, CALL, CALLA and RET (R161, R163): where each goes, what LOOP counts and what a call pushes. -/
def Obligations.ControlTransfersComplete : Prop :=
  ∀ (q : SeqId) (t : Half) (rs : BitVec 5) (imm : Byte) (s a : State) (ea : Nat) (bs : List Byte),
    let r := s.regs q
    let f := fetched q s
    (canRun q tNone s = true →
      Transfers (.jmp q t) q s f t ∧ Transfers (.jmpa q rs) q s f (r.A rs) ∧
      (2 ≤ r.selSp.toNat → r.check 7 (r.selSp.toNat - 2) 2 .write = .ok ea →
        f.memWrite q ea (leBytes 2 (r.pc + 4).toNat) = .ok a () →
        let b := a.modRegs q fun r => r.setSelSp (r.selSp - 2)
        Transfers (.call q t) q s b t ∧ Transfers (.calla q rs) q s b (r.A rs)) ∧
      (r.check 7 r.selSp.toNat 2 .read = .ok ea → f.memRead q ea 2 = .ok a bs →
        Transfers (.ret q) q s (a.modRegs q fun r => r.setSelSp (r.selSp + 2)) (BitVec.ofNat 16 (ofLeBytes bs)))) ∧
    (canRun q (tB rs) s = true →
      let b := f.modRegs q fun r => r.setB rs (r.B rs - 1)
      (r.B rs ≠ 1 → Transfers (.loop q rs imm) q s b (r.pc + 4 + imm.signExtend 16 * 4)) ∧
      (r.B rs = 1 → RunsTo (.loop q rs imm) q s b))

/-- R162: Jcc jumps where the condition that its MINOR selects holds of ST as it stands, and else goes on; the condition of each
MINOR. -/
def Obligations.BranchConditions : Prop :=
  (∀ (q : SeqId) (m : BitVec 4) (t : Half) (s : State), canRun q (tSt (jccMask m)) s = true →
    ((s.regs q).jcc m = true → Transfers (.jcc q m t) q s (fetched q s) t) ∧
    ((s.regs q).jcc m = false → RunsTo (.jcc q m t) q s (fetched q s))) ∧
  ∀ r : Regs,
    (r.jcc 0x0 = true ↔ bit r.st 0 = true) ∧ (r.jcc 0x1 = true ↔ bit r.st 0 = false) ∧
    (r.jcc 0x2 = true ↔ bit r.st 1 = true) ∧ (r.jcc 0x3 = true ↔ bit r.st 1 = false) ∧
    (r.jcc 0x4 = true ↔ bit r.st 2 = true) ∧ (r.jcc 0x5 = true ↔ bit r.st 2 = false) ∧
    (r.jcc 0x6 = true ↔ bit r.st 3 = true) ∧ (r.jcc 0x7 = true ↔ bit r.st 3 = false) ∧
    (r.jcc 0x8 = true ↔ bit r.st 1 = false ∧ bit r.st 0 = false) ∧ (r.jcc 0x9 = true ↔ bit r.st 1 = true ∨ bit r.st 0 = true) ∧
    (r.jcc 0xA = true ↔ bit r.st 2 = bit r.st 3) ∧ (r.jcc 0xB = true ↔ bit r.st 2 ≠ bit r.st 3) ∧
    (r.jcc 0xC = true ↔ bit r.st 0 = false ∧ bit r.st 2 = bit r.st 3) ∧
    (r.jcc 0xD = true ↔ bit r.st 0 = true ∨ bit r.st 2 ≠ bit r.st 3) ∧
    (r.jcc 0xE = true ↔ bit r.st 5 = true) ∧ (r.jcc 0xF = true ↔ bit r.st 5 = false)

/-- An entry of R237 that is not redirected, does not escalate and ends no item, after what is in flight has landed and the words
of the entry have issued (R214, R238): the frame on the runtime stack, SP, ECAUSE and EADDR (not for TRAP), the new ST and the
handler's PC; every other register keeps its value. -/
def Obligations.EntrySavesAndEnters : Prop :=
  ∀ (s b : State) (q : SeqId) (e : Entry) (fa : Nat) (h : Half) (own : Bool),
    let short := e.kind == .trap
    let a := (s.landAll q).cycles q (List.replicate (if short then 8 else 9) 0xB)
    let r := a.regs q
    e.vec ≠ 6 → (bit r.st stFPP = true → r.ml = 7) → (KeepsItem (a.seq q) ∨ ∃ l, e.kind = .int l) →
    (e.kind = .fault → (a.seq q).exc.dbl = false ∧ r.ml ≠ 7) → EntryPasses q a e fa b h →
    let t := s.enter q e own
    t.regs q = { r with
      spr := r.spr - (if short then 4 else 8)
      ecause := if short then r.ecause else e.ecause
      eaddr := if short then r.eaddr else e.eaddr
      st := (t.regs q).st
      pc := h } ∧
    (t.regs q).priv = true ∧ bit (t.regs q).st stRES = false ∧ bit (t.regs q).st stSHORT = false ∧
    (t.regs q).ml = (match e.kind with | .fault => 7 | .int l => l.toNat | _ => r.ml) ∧
    (∀ i, i < 6 ∨ i = 10 ∨ i = 12 ∨ i = 13 ∨ i = 15 → bit (t.regs q).st i = bit r.st i) ∧
    t.mem = b.mem ∧ (∀ p, p ≠ q → t.seq p = s.seq p)

/-- GATE, TRAP and BRK (R239, R372) each make the entry that R237 gives them; a GATE or TRAP number above 15 is ILLEGAL with
cause 0x07; BRK asks for a halt instead while BRKHALT is set. EXCEPTION_ENTRY raises ILLEGAL for an unassigned major (cause
0x01), a MINOR that its major does not list (0x02) and a map entry of 0x000 below 0x200 (0x06; R89, R143, R171). -/
def Obligations.CallsAndIllegalWordsEnter : Prop :=
  ∀ (q : SeqId) (imm : Byte) (k : Half) (s : State), canRun q tNone s = true →
    let r := s.regs q
    let f := fetched q s
    (imm.toNat < 16 →
      EndsByEntry (.gate q imm) q s f { vec := 32 + imm.toNat, ecause := 0, eaddr := r.pc, framePc := r.pc + 4, ipc := r.pc, kind := .gate } ∧
      EndsByEntry (.trap q imm) q s f { vec := 48 + imm.toNat, ecause := r.ecause, eaddr := r.eaddr, framePc := r.pc + 4,
                                        ipc := r.pc, kind := .trap }) ∧
    (16 ≤ imm.toNat → Raises (.gate q imm) q s f (illegal r.pc 0x07) ∧ Raises (.trap q imm) q s f (illegal r.pc 0x07)) ∧
    ((s.seq q).dbg.brkhalt = false →
      EndsByEntry (.brk q k) q s f { vec := 8, ecause := 0, eaddr := k, framePc := r.pc + 4, ipc := r.pc, kind := .fault }) ∧
    ((s.seq q).dbg.brkhalt = true → (s.seq q).dhalt = false → Does (.brk q k) s fun t =>
      t.regs q = { r with pc := r.pc + 4 } ∧ (t.seq q).dhalt = true ∧ (t.seq q).dbg.brkcode = k ∧ OnlySeq q (f.routine q (wordsOf (.brk q k))) t) ∧
    (∀ m : BitVec 7, (m.toNat = 0x0F ∨ 0x1C ≤ m.toNat ∧ m.toNat ≤ 0x1F ∨ 0x2A ≤ m.toNat ∧ m.toNat ≤ 0x2F ∨ m.toNat = 0x3F ∨
        0x4C ≤ m.toNat ∧ m.toNat ≤ 0x4F ∨ 0x5A ≤ m.toNat ∧ m.toNat ≤ 0x5F ∨ 0x70 ≤ m.toNat) →
      Raises (.exceptionEntry q (.undefinedMajor m)) q s f (illegal r.pc 0x01)) ∧
    (∀ (m : BitVec 7) (n : BitVec 4), majorAssigned m = true → minorListed m n = false →
      Raises (.exceptionEntry q (.undefinedMinor m n)) q s f (illegal r.pc 0x02)) ∧
    ∀ i : BitVec 9, (s.seq q).store.entry i.toNat = 0 → (s.seq q).store.mue.contains i.toNat = false →
      Raises (.exceptionEntry q (.mapEntryInvalid i)) q s f (illegal r.pc 0x06)

/-- RETS in runtime mode (R240, R247): the saved ST tells the frame's length; SP, ST and PC are restored; with DBL set the
ledge frame is popped instead. -/
def Obligations.ReturnsRestore : Prop :=
  ∀ (q : SeqId) (s : State), canRun q (tSt 0xFFFF) s = true → (s.regs q).priv = true →
    let r := s.regs q
    let x := s.seq q
    (x.exc.dbl = true → Transfers (.rets q) q s
      ((fetched q s).modRegs q fun r => { r with lsp := BitVec.ofNat 8 (min 0x40 (r.lsp.toNat + 8)),
                                                 st := (x.ledgeAt (r.lsp.toNat + 1) ++ x.ledgeAt r.lsp.toNat) &&& 0x3FFF })
      (x.ledgeAt (r.lsp.toNat + 3) ++ x.ledgeAt (r.lsp.toNat + 2))) ∧
    ∀ ea ea' a b stb fr, x.exc.dbl = false → r.check 7 r.spr.toNat 2 .read = .ok ea → (fetched q s).memRead q ea 2 = .ok a stb →
      let st : Half := BitVec.ofNat 16 (ofLeBytes stb)
      let size : Nat := if bit st stSHORT then 4 else 8
      r.check 7 r.spr.toNat size .read = .ok ea' → a.memRead q ea' size = .ok b fr →
      Transfers (.rets q) q s (b.modRegs q fun r => { r with spr := r.spr + BitVec.ofNat 16 size, st := st &&& 0x3FFF })
        (BitVec.ofNat 16 (ofLeBytes ((fr.drop 2).take 2)))

/-- R144: in program mode each privileged instruction, and MOVX of a number of R131, raises PRIV with cause 0x40 and EADDR at its PC,
and does nothing else. -/
def Obligations.PrivilegedInProgramMode : Prop :=
  ∀ (q : SeqId) (f : FormR) (x : FormRI) (imm ch : Byte) (rd : BitVec 5) (s : State), (s.regs q).priv = false →
    let e : Exn := { vec := 5, cause := 0x40, eaddr := (s.regs q).pc }
    let a := fetched q s
    (canRun q tNone s = true → ∀ i, i ∈ [Instr.wdog q, .evtPub q ch, .halt q] → Raises i q s a e) ∧
    (canRun q tNone s = true → imm.toNat < 8 → Raises (.setml q imm) q s a e) ∧
    (canRun q (tSt 0x20) s = true → imm.toNat < 32 → Raises (.stim q imm) q s a e) ∧
    (canRun q (tSt 0x01) s = true → Raises (.evtTake q ch) q s a e ∧ Raises (.waite q ch) q s a e ∧
      (imm.toNat < 8 → Raises (.waiteT q imm) q s a e)) ∧
    (canRun q ((tB rd).or (tSt 0x01)) s = true → Raises (.evtCnt q rd ch) q s a e) ∧
    (canRun q (tSt 0xFFFF) s = true → Raises (.rets q) q s a e) ∧
    (canRun q (sldTouch f) s = true → f.minor.toNat ≤ 1 → (bit f.rd 3 = true → f.rd.extractLsb' 0 3 = 0 ∨ f.rd.extractLsb' 0 3 = 7) →
      Raises (.sld q f) q s a e ∧ Raises (.sst q f) q s a e) ∧
    (canRun q (movxTouch x) s = true → x.minor.toNat ≤ 1 → x.imm.toNat < 32 → srPriv x.imm.toNat = true →
      (x.minor = 1 → srReadOnly x.imm.toNat = false) → Raises (.movx q x) q s a e)

/-! ### The multiplier, the divider and floating point -/

/-- MUL and MULA (R164, R165): the product of the operands of the MINOR's width, signed or not, goes in flight and no register
changes; PRODUCT_LANDING writes the oldest product into MRH:MRL, or adds it. The last clauses say what widths the MINOR names
(R164, R215) and what number a view holds, signed or not. -/
def Obligations.ProductsIssueAndLand : Prop :=
  (∀ (q : SeqId) (m : BitVec 4) (rs rx : BitVec 5) (s : State),
      (∀ v, widthOf m = some v → canRun q ((tView v rs).or (tView v rx)) s = true →
        let r := s.regs q
        let p : BitVec 64 := BitVec.ofInt 64 (r.viewInt v (bit m 2) rs * r.viewInt v (bit m 2) rx)
        RunsTo (.mul q m rs rx) q s ((fetched q s).modSeq q fun x => { x with prods := x.prods ++ [{ value := p, acc := false }] }) ∧
        RunsTo (.mula q m rs rx) q s ((fetched q s).modSeq q fun x => { x with prods := x.prods ++ [{ value := p, acc := true }] })) ∧
      (widthOf m = none → canRun q tNone s = true →
        Raises (.mul q m rs rx) q s (fetched q s) (illegal (s.regs q).pc 0x02) ∧
        Raises (.mula q m rs rx) q s (fetched q s) (illegal (s.regs q).pc 0x02)) ∧
      ∀ p ps, (s.seq q).prods = p :: ps → s.alive q = true →
        exec (.productLanding q) s = .next (s.modSeq q fun x => { x with
          regs := { x.regs with mr := if p.acc then x.regs.mr + p.value else p.value }
          cond := { x.cond with mulland := true }
          prods := ps })) ∧
  (∀ m : BitVec 4, widthOf m =
    if m = 0 ∨ m = 4 then some .b else if m = 1 ∨ m = 5 then some .h else if m = 2 ∨ m = 6 then some .w else none) ∧
  ∀ (r : Regs) (n : BitVec 5),
    r.viewInt .b true n = (r.B n).toInt ∧ r.viewInt .b false n = (r.B n).toNat ∧
    r.viewInt .h true n = (r.H n).toInt ∧ r.viewInt .h false n = (r.H n).toNat ∧
    r.viewInt .w true n = (r.W n).toInt ∧ r.viewInt .w false n = (r.W n).toNat

/-- DIV and REM (R212, R219): the pool takes a division whose quotient truncates toward zero and whose remainder has the
dividend's sign, with the two edge cases; Z and N come from the value written, T and V from the case; the instruction holds until
the division lands. -/
def Obligations.DivisionsIssue : Prop :=
  ∀ (q : SeqId) (m : BitVec 4) (rd rs rx : BitVec 5) (s : State) (v : View), widthOf m = some v → (s.seq q).pool = none →
    canRun q ((((tView v rd).or (tView v rs)).or (tView v rx)).or (tSt 0x2D)) s = true →
    ∃ p p', Divides (.div q m rd rs rx) q s p ∧ Divides (.rem q m rd rs rx) q s p' ∧
      let r := s.regs q
      let w := 8 * v.size
      let a := r.viewInt v (bit m 2) rs
      let b := r.viewInt v (bit m 2) rx
      let least := bit m 2 = true ∧ a = -(2 ^ (w - 1)) ∧ b = -1
      (b = 0 → p.result.toNat = 2 ^ w - 1 ∧ p'.result.toNat = r.view v rs) ∧
      (b ≠ 0 → least → p.result.toNat = 2 ^ (w - 1) ∧ p'.result = 0) ∧
      (b ≠ 0 → ¬ least → ∃ quo rem : Int, a = quo * b + rem ∧ rem.natAbs < b.natAbs ∧ (rem = 0 ∨ (rem < 0 ↔ a < 0)) ∧
        (p.result.toNat : Int) = quo % 2 ^ w ∧ (p'.result.toNat : Int) = rem % 2 ^ w) ∧
      ∀ x, x = p ∨ x = p' → x.dest = some (v.size, rd) ∧ x.stMask = 0x2D ∧ x.fp = false ∧ x.divz = some (decide (b = 0)) ∧
        bit x.stVal 0 = decide (x.result = 0) ∧ bit x.stVal 2 = x.result.getLsbD (w - 1) ∧
        bit x.stVal 5 = decide (b = 0) ∧ bit x.stVal 3 = decide (b ≠ 0 ∧ least)

/-- The floating-point operations (R212, R215, R220, R225 to R229): each leaves in flight the operation of its operands, read
through the format's view under DAZ, and retires, or, on the divider, holds; FSUB is FADD of the negated operand; FCMP writes no
register, and its POOLR is a free value (log 3). -/
def Obligations.FloatingPointIssues : Prop :=
  ∀ (q : SeqId) (m : BitVec 4) (rd rs rx : BitVec 5) (s : State), (s.seq q).pool = none →
    let r := s.regs q
    let c := r.fctl
    (∀ f, m.toNat < 4 → fmtOf m.toNat = some f →
      let x (n : BitVec 5) := f.decode c.daz (r.view f.toView n)
      (canRun q (arithTouch m rd rs rx true) s = true →
        Issues (.fadd q m rd rs rx) q s (fpOp f.toView rd r (f.add c (x rs) (x rx))) ∧
        Issues (.fsub q m rd rs rx) q s (fpOp f.toView rd r (f.add c (x rs) (x rx).neg)) ∧
        Issues (.fmul q m rd rs rx) q s (fpOp f.toView rd r (f.mul c (x rs) (x rx))) ∧
        Divides (.fdiv q m rd rs rx) q s (fpOp f.toView rd r (f.div c (x rs) (x rx))) ∧
        Issues (.fma q m rd rs rx) q s (fpOp f.toView rd r (f.fma c (x rs) (x rx) (x rd)))) ∧
      (canRun q (arithTouch m rd rs rx false) s = true →
        Divides (.fsqrt q m rd rs rx) q s (fpOp f.toView rd r (f.sqrt c (x rs)))) ∧
      (canRun q (fclassTouch m rd rs) s = true →
        Issues (.fclass q m rd rs rx) q s (fpOp .h rd r { val := 2 ^ f.classBit (r.view f.toView rs), fl := 0 }))) ∧
    (∀ f, fmtOf (m.toNat % 4) = some f →
      let a := r.view f.toView rs
      let b := r.view f.toView rx
      (canRun q (fminmaxTouch m rd rs rx) s = true →
        Issues (.fminmax q m rd rs rx) q s (fpOp f.toView rd r (f.minmax c.daz (m.toNat / 4) a b))) ∧
      (canRun q (fcmpTouch m rs rx) s = true → Does (.fcmp q m rd rs rx) s fun t =>
        ∃ t0 p, t = t0.fresh ∧
          Retires q (((fetched q s).poolGrant q p).routine q (wordsOf (.fcmp q m rd rs rx))) (r.pc + 4) t0 ∧
          p.dest = none ∧ p.result = Config.freeWord s.freeCtr ∧ p.stMask = 0x2F ∧ p.stVal = (f.rel c.daz a b).st (m.toNat / 4) ∧
          p.flags = f.cmpFlags c.daz (m.toNat / 4) a b)) ∧
    (∀ d g, cvtType m.toNat = some d → cvtType (rx.toNat % 16) = some g → canRun q (fcvtTouch m rd rs rx) s = true →
      let z : FCtl := { c with rm := .rtz }
      (∀ sg v f, g = .int sg v → d = .flt f → bit rx 4 = false →
        Issues (.fcvt q m rd rs rx) q s (fpOp f.toView rd r (cvtIF c sg (8 * v.size) f (r.view v rs)))) ∧
      (∀ f f', g = .flt f → d = .flt f' → bit rx 4 = false →
        Issues (.fcvt q m rd rs rx) q s (fpOp f'.toView rd r (cvtFF c f f' (r.view f.toView rs)))) ∧
      (∀ f sg v, g = .flt f → d = .int sg v →
        Issues (.fcvt q m rd rs rx) q s (fpOp v rd r (cvtFI (if bit rx 4 then z else c) f sg (8 * v.size) (r.view f.toView rs)))))

/-- What the numbers of R220 to R229 are: rounding to an integer in each mode, exact sums of finite values rounded once, the
first NaN quieted with NV for a signalling one, and the flags of a comparison. -/
def Obligations.FloatingPointResults : Prop :=
  (∀ (neg : Bool) (x k : Nat),
    let d := 2 ^ k
    (∃ n, n = roundAt .rtz neg x k ∧ n * d ≤ x ∧ x < (n + 1) * d) ∧
    (∃ n, n = roundAt .rne neg x k ∧ 2 * (n * d) ≤ 2 * x + d ∧ 2 * x ≤ 2 * (n * d) + d ∧
      (2 * (n * d) = 2 * x + d ∨ 2 * x = 2 * (n * d) + d → k = 0 ∨ n % 2 = 0)) ∧
    (∃ n, n = roundAt .rna neg x k ∧ 2 * x < 2 * (n * d) + d ∧ 2 * (n * d) ≤ 2 * x + d) ∧
    (∃ n, n = roundAt .rup neg x k ∧ (neg = false → x ≤ n * d ∧ n * d < x + d) ∧ (neg = true → n * d ≤ x ∧ x < (n + 1) * d)) ∧
    (∃ n, n = roundAt .rdn neg x k ∧ (neg = true → x ≤ n * d ∧ n * d < x + d) ∧ (neg = false → n * d ≤ x ∧ x < (n + 1) * d))) ∧
  (∀ (f : Fmt) (c : FCtl) (ma mb : Nat) (e : Int), 0 < ma + mb →
    f.add c (.fin false ma e) (.fin false mb e) = f.round c.rm c.ftz false (ma + mb) e ∧
    (mb < ma → f.add c (.fin false ma e) (.fin true mb e) = f.round c.rm c.ftz false (ma - mb) e) ∧
    (ma = mb → f.add c (.fin false ma e) (.fin true mb e) = { val := f.packZero (decide (c.rm = .rdn)), fl := 0 })) ∧
  (∀ (f : Fmt) (c : FCtl) (n : Bool) (fr : Nat) (b : FVal), b.isNan = false →
    f.add c (.nan n fr) b = { val := f.packNan n fr, fl := if f.quiet fr then 0 else fNV } ∧
    f.add c b (.nan n fr) = { val := f.packNan n fr, fl := if f.quiet fr then 0 else fNV }) ∧
  (∀ (f : Fmt) (daz : Bool) (a b : Nat),
    (f.rel daz a b = .un ↔ (f.decode daz a).isNan = true ∨ (f.decode daz b).isNan = true) ∧
    (f.minmax daz 0 a b = f.minmax daz 0 b a ∨ (f.decode daz a).isNan = true ∨ (f.decode daz b).isNan = true))

/-- POOL_LANDING (R212, R230) writes the operation's destination, the ST bits it sets and the sticky flags of FPC; POOLR and
POOLRDY take their values; a flag enabled in FPC.TE sets ST.FPP and FPC.TC with ML below 7; a divider instruction retires with
it. FBAR retires when nothing is in flight and holds until then (R233). -/
def Obligations.PoolOperationsLand : Prop :=
  ∀ (q : SeqId) (s : State) (p : PoolOp),
    ((s.seq q).pool = some p → s.alive q = true → ∃ t : State,
      let r := s.regs q
      let trap := p.fp && (p.flags &&& r.fpc.extractLsb' 8 5) != 0 && decide ((t.regs q).ml < 7)
      ((s.seq q).wait ≠ .pool → exec (.poolLanding q) s = .next t) ∧
      ((s.seq q).wait = .pool → Does (.poolLanding q) s (Retires q t (r.pc + 4)) ∧ (t.seq q).wait = .none) ∧
      OnlySeq q s t ∧ (t.seq q).pool = none ∧ (t.seq q).poolr = p.result ∧ (t.seq q).poolrdy = true ∧
      (t.regs q).b = (match p.dest with
        | none => r
        | some (sz, n) => r.setView (if sz = 1 then .b else if sz = 2 then .h else .w) n p.result.toNat).b ∧
      t.regs q = { r with b := (t.regs q).b, st := (t.regs q).st, fpc := (t.regs q).fpc } ∧
      (∀ i, bit (t.regs q).st i =
        if i = stFPP then bit (t.regs q).st i else if bit p.stMask i then bit p.stVal i else bit r.st i) ∧
      (bit p.stMask stFPP = false → bit (t.regs q).st stFPP = (trap || bit r.st stFPP)) ∧
      (p.fp = true → (t.regs q).fpc.extractLsb' 16 5 = r.fpc.extractLsb' 16 5 ||| p.flags) ∧
      (p.fp = false → (t.regs q).fpc = r.fpc) ∧
      (trap = true → (t.regs q).fpc.extractLsb' 24 5 = p.flags ∧ (t.seq q).exc.trapAddr = p.pc)) ∧
    (canRun q tNone s = true →
      ((s.seq q).pool = none → RunsTo (.fbar q) q s (fetched q s)) ∧
      ((s.seq q).pool = some p → exec (.fbar q) s = .next ((fetched q s).routine q {})))

/-! ### System operations, events and waits -/

/-- WDOG reloads the watchdog, SETML changes ML, STIM tells in T whether its pulse was accepted and emits the packet of an
accepted one (R167, R242, R250, R381). -/
def Obligations.SystemOperationsComplete : Prop :=
  ∀ (q : SeqId) (imm : Byte) (s : State), (s.regs q).priv = true →
    let f := fetched q s
    (canRun q tNone s = true →
      RunsTo (.wdog q) q s (f.modSeq q fun x => { x with exc := { x.exc with wdcount := x.exc.wdperiod } }) ∧
      (imm.toNat < 8 → ∃ st, RunsTo (.setml q imm) q s (f.modRegs q fun r => { r with st := st }) ∧
        (∀ i, i < 6 ∨ 8 < i → bit st i = bit (s.regs q).st i) ∧ bit st 6 = bit imm 0 ∧ bit st 7 = bit imm 1 ∧ bit st 8 = bit imm 2) ∧
      (8 ≤ imm.toNat → Raises (.setml q imm) q s f (illegal (s.regs q).pc 0x07))) ∧
    (canRun q (tSt 0x20) s = true →
      (imm.toNat < 32 → ∃ a st, RunsTo (.stim q imm) q s (a.modSeq q fun x => { x with
          regs := { x.regs with st := st }, cond := { x.cond with stimack := f.stimOk q imm.toNat } }) ∧
        StIs (s.regs q).st st none none none none none (some (f.stimOk q imm.toNat)) ∧
        (f.stimOk q imm.toNat = false → a = f) ∧
        (f.stimOk q imm.toNat = true → a = { f with trace := a.trace, freeCtr := f.freeCtr + 1 } ∧
          ∃ p, a.trace.fifo.getLast? = some p ∧ p.typ = 0x05 ∧ p.seqn.toNat = q.val ∧
            p.payload = [imm, 0] ++ leBytes 2 (s.regs q).ctxid.toNat ++ leBytes 2 (s.regs q).pc.toNat
              ++ leBytes 4 ((s.regs q).W 0).toNat)) ∧
      (32 ≤ imm.toNat → Raises (.stim q imm) q s f (illegal (s.regs q).pc 0x07)))

/-- HOLD and FREE (R168): HOLD locks a free word and reads it, reports a lock already held by T and one held by another
sequencer by Z = T = 0; FREE stores W[RD] and releases the lock on the word, or writes nothing; LKB clears. YIELD (R44, R167,
R169) retires, lands what is in flight, breaks the lock and parks until the gallery tick; with no quantum over, the running
item and the registers stay. -/
def Obligations.LocksAndYield : Prop :=
  (∀ (q : SeqId) (g : FormR) (s a : State) (ea : Nat) (bs : List Byte), g.minor = 0 →
      let r := s.regs q
      let f := fetched q s
      r.check g.segn (r.A g.rs).toNat 4 .hold = .ok ea →
      (canRun q ((tW g.rd).or (tSt 0x21)) s = true →
        ((s.seq q).lock ≠ none → ∃ st c, RunsTo (.hold q g) q s (f.modSeq q fun x => { x with regs := { x.regs with st := st }, cond := c }) ∧
          StIs r.st st (some false) none none none none (some true)) ∧
        ((s.seq q).lock = none → (∃ p, p ≠ q ∧ (s.seq p).lock = some ea) → ∃ st c,
          RunsTo (.hold q g) q s (f.modSeq q fun x => { x with regs := { x.regs with st := st }, cond := c }) ∧
          StIs r.st st (some false) none none none none (some false)) ∧
        ((s.seq q).lock = none → (∀ p, p ≠ q → (s.seq p).lock ≠ some ea) → f.memRead q ea 4 = .ok a bs → ∃ st c,
          RunsTo (.hold q g) q s (a.modSeq q fun x => { x with
            lock := some ea, regs := { r.setW g.rd (BitVec.ofNat 32 (ofLeBytes bs)) with st := st }, cond := c }) ∧
          bit st 0 = true ∧ bit st 5 = false ∧ bit st stLKB = false ∧ ∀ i, i ≠ 0 → i ≠ 5 → i ≠ stLKB → bit st i = bit r.st i)) ∧
      (canRun q ((tW g.rd).or (tSt 0x01)) s = true →
        ((s.seq q).lock = some ea → f.memWrite q ea (leBytes 4 (r.W g.rd).toNat) = .ok a () → ∃ st,
          RunsTo (.free q g) q s (a.modSeq q fun x => { x with
            lock := none, regs := { x.regs with st := st }, dbg := { x.dbg with defer := false } }) ∧
          bit st 0 = true ∧ bit st stLKB = false ∧ ∀ i, i ≠ 0 → i ≠ stLKB → bit st i = bit r.st i) ∧
        ((s.seq q).lock ≠ some ea → ∃ st,
          RunsTo (.free q g) q s (f.modSeq q fun x => { x with regs := { x.regs with st := st }, dbg := { x.dbg with defer := false } }) ∧
          bit st 0 = false ∧ bit st stLKB = false ∧ ∀ i, i ≠ 0 → i ≠ stLKB → bit st i = bit r.st i))) ∧
  ∀ (q : SeqId) (s : State), canRun q tNone s = true → ¬ ((s.seq q).quantumUp = true ∧ (s.seq q).prefetch ≠ none) →
    Does (.yield q) s fun t =>
      (t.seq q).run = .parked ∧ (t.seq q).lock = none ∧ (t.seq q).pool = none ∧ (t.seq q).prods = [] ∧
      (t.seq q).running = (s.seq q).running ∧ (t.seq q).prefetch = (s.seq q).prefetch ∧ (t.regs q).pc = (s.regs q).pc + 4 ∧
      ((s.seq q).pool = none → (s.seq q).prods = [] → (s.seq q).lock = none → t.regs q = { s.regs q with pc := (s.regs q).pc + 4 }) ∧
      t.mem = (fetched q s).mem ∧ ∀ p, p ≠ q → t.seq p = s.seq p

/-- EVT.PUB puts one count on a channel that has a consumer (with counts of the channel in flight, whether in the same fc is
free, log 49); EVT.TAKE takes one pending count and EVT.CNT reads it (R167, R291, R296). -/
def Obligations.EventOperationsComplete : Prop :=
  ∀ (q : SeqId) (ch : Byte) (rd : BitVec 5) (s : State), (s.regs q).priv = true →
    let f := fetched q s
    let r := s.regs q
    let n := (s.seq q).pendOf ch
    (canRun q tNone s = true →
      (chType (s.ev.chsub[ch.toNat]) = 0 → RunsTo (.evtPub q ch) q s f) ∧
      (chType (s.ev.chsub[ch.toNat]) ≠ 0 →
        (s.ev.flying ch = false → RunsTo (.evtPub q ch) q s { f with ev := { f.ev with flight := f.ev.flight ++ [(ch, 1)] } }) ∧
        (s.ev.flying ch = true → RunsTo (.evtPub q ch) q s { f with
          freeCtr := f.freeCtr + 1, ev := f.ev.carry (Config.sameFc f.freeCtr) ch 1 }))) ∧
    (canRun q (tSt 0x01) s = true → ∃ st, StIs r.st st (some (decide (n ≠ 0))) none none none none none ∧
      (n = 0 → RunsTo (.evtTake q ch) q s (f.modRegs q fun r => { r with st := st })) ∧
      (∀ i, (s.seq q).slotOf ch = some i → n ≠ 0 → RunsTo (.evtTake q ch) q s (f.modSeq q fun x => { x with
        regs := { x.regs with st := st }, slots := x.slots.set i { x.slots[i] with pend := x.slots[i].pend - 1 } }))) ∧
    (canRun q ((tB rd).or (tSt 0x01)) s = true → ∃ st, StIs r.st st (some (decide (n = 0))) none none none none none ∧
      RunsTo (.evtCnt q rd ch) q s (f.modRegs q fun _ => wroteB r rd (BitVec.ofNat 8 n) st))

/-- WAITE, WAITE.T and WAIT_END (R170): the event ends the wait with Z := 1 and is consumed or acknowledged; BUDX, an
interrupt above ML, a halt or an unbind request ends it with Z := 0; else the sequencer waits. HALT (R167) waits until the
prefetch slot is occupied or a cause of BOUND is pending, a deferred halt among them; HALT_WAKE then retires it. The cc of a
wait that has ended are spent then (R399). -/
def Obligations.WaitsEnd : Prop :=
  (∀ (q : SeqId) (ch imm : Byte) (s : State),
      let r := s.regs q
      let ends (i : Instr) (a : State) (z : Bool) : Prop :=
        ∃ st, StIs r.st st (some z) none none none none none ∧ Does i s (WaitOver q (a.modRegs q fun r => { r with st := st }) (r.pc + 4))
      let tm : Fin 8 := Fin.ofNat 8 imm.toNat
      let taken (a : State) : State := a.modSeq q fun x => x.take ch
      let acked (a : State) : State := a.modGal (galOf q) fun x => { x with timers := x.timers.set tm { x.timers[tm] with matched := false } }
      let others : Prop := (s.seq q).bud.budx = true ∨ (s.seq q).irqNow = true ∨ (s.seq q).dhalt = true ∨ (s.seq q).unbind ≠ none
      (canRun q (tSt 0x01) s = true → r.priv = true →
        let f := fetched q s
        ((s.seq q).pendOf ch ≠ 0 → ends (.waite q ch) ((taken f).routine q (wordsOf (.waite q ch))) true) ∧
        (imm.toNat < 8 → (f.gal (galOf q)).timers[tm].matched = true → ends (.waiteT q imm) ((acked f).routine q (wordsOf (.waiteT q imm))) true) ∧
        (¬ others → (s.seq q).stepping = false →
          ((s.seq q).pendOf ch = 0 → HoldsAt (.waite q ch) q s (f.modSeq q fun x => { x with wait := .waite ch })) ∧
          (imm.toNat < 8 → (f.gal (galOf q)).timers[tm].matched = false →
            HoldsAt (.waiteT q imm) q s (f.modSeq q fun x => { x with wait := .waiteT tm })))) ∧
      (Issuing s q →
        ((s.seq q).wait = .waite ch → ((s.seq q).pendOf ch ≠ 0 → ends (.waitEnd q) ((taken s).waited q 0) true) ∧
          ((s.seq q).pendOf ch = 0 → others → ends (.waitEnd q) (s.waited q 0) false)) ∧
        ((s.seq q).wait = .waiteT tm → ((s.gal (galOf q)).timers[tm].matched = true → ends (.waitEnd q) ((acked s).waited q 0) true) ∧
          ((s.gal (galOf q)).timers[tm].matched = false → others → ends (.waitEnd q) (s.waited q 0) false)))) ∧
  ∀ (q : SeqId) (s : State),
    (canRun q tNone s = true → (s.regs q).priv = true → (s.seq q).prefetch = none → (s.seq q).bound = false →
      (s.seq q).dhalt = false → (s.seq q).stepping = false →
      HoldsAt (.halt q) q s ((fetched q s).modSeq q fun x => { x with wait := .halt })) ∧
    (Issuing s q → (s.seq q).wait = .halt →
      ((s.seq q).prefetch = none → ((s.seq q).bound = true ∨ (s.seq q).dhalt = true) →
        Does (.haltWake q) s (WaitOver q (s.waited q 0) ((s.regs q).pc + 4))) ∧
      ((s.seq q).prefetch ≠ none → (s.seq q).running ≠ none →
        Does (.haltWake q) s (WaitOver q (s.waited q 0) ((s.regs q).pc + 4))))

/-! ### Stream instructions -/

/-- COPY, SCAN, CRCS, MATCH, MATCH.F, HASHS, FILT, DGST.P, FILLS and CMPS start or resume (R172 to R178, R185, R193, R195 to R197):
with L = 0 each retires with its results; a variant that its row does not list, a Wp out of range and a bad FILT descriptor are
ILLEGAL, an odd HASHS table MISALIGN, a COPY between overlapping windows SEGFLT; else its class, pattern or descriptor is latched
from scratch and it waits for its steps, no register changed but FILT's count at a fresh start, or, with less than one unit to
cover, it retires. -/
def Obligations.LongInstructionsBegin : Prop :=
  ∀ (q : SeqId) (v : Bool) (f : FormS) (s b : State) (a : Nat) (bs : List Byte),
    let r := s.regs q
    let c := fetched q s
    let n := r.wx f
    let wp := r.wp f
    let runs (k : LongKind) : Prop := canRun q (longTouch k f) s = true
    let bad (i : Instr) (cause : Byte) : Prop := Raises i q s c (illegal r.pc cause)
    let retires (i : Instr) (r' : Regs) : Prop := RunsTo i q s (c.modRegs q fun _ => r')
    let op (k : LongKind) (v : Bool) (tab : List Byte) : LongOp := { freshLong k v f r with loaded := true, table := tab }
    let begins (i : Instr) (k : LongKind) (v : Bool) : Prop := HoldsAt i q s (c.modSeq q fun x =>
      { x with wait := .long (op k v []), cond := { x.cond with sstall := false } })
    let latches (i : Instr) (k : LongKind) (v : Bool) (r' : Regs) : Prop := Does i s fun t =>
      (t.seq q).wait = .long (op k v bs) ∧ t.regs q = r' ∧ t.mem = b.mem ∧ ∀ p, p ≠ q → (t.seq p).regs = (s.seq p).regs
    let ends (i : Instr) (r' : Regs) : Prop := RunsTo i q s ((b.consumeChunks q 1 (2 ^ 52)).modRegs q fun _ => r')
    let res := bit r.st stRES
    let fresh : Regs := if res then r else r.setW (f.rx + 1) (wp &&& 0xFFFF)
    let filtZ : Flags := { z := some (decide ((fresh.wp f).toNat < 65536)) }
    let wide := 2 * 2 ^ (wp.toNat % 16)
    (runs .copy → bad (.copy q true f) 0x02) ∧ (runs .crcs → bad (.crcs q true f) 0x02) ∧ (runs .hashs → bad (.hashs q true f) 0x02) ∧
    (runs .filt → bad (.filt q true f) 0x02) ∧ (runs .cmps → bad (.cmps q true f) 0x02) ∧
    (runs .matchF → (wp.toNat = 0 ∨ 32 < wp.toNat) → bad (.matchF q f) 0x07) ∧
    (runs .hashs → (wp.toNat < 8 ∨ 15 < wp.toNat) → bad (.hashs q false f) 0x07) ∧
    (n = 0 →
      (runs .copy → retires (.copy q false f) (endRegs r {})) ∧ (runs .crcs → retires (.crcs q false f) (endRegs r {})) ∧
      (runs .dgst → retires (.dgstP q f) (endRegs r {})) ∧ (runs .fills → retires (.fills q v f) (endRegs r {})) ∧
      (runs .hashs → 8 ≤ wp.toNat → wp.toNat ≤ 15 → retires (.hashs q false f) (endRegs r {})) ∧
      (runs .scan → retires (.scan q v f) (endRegs r { t := some false })) ∧
      (runs .matchS → retires (.matchS q f) (endRegs r { t := some false })) ∧
      (runs .matchF → 1 ≤ wp.toNat → wp.toNat ≤ 32 → retires (.matchF q f) (endRegs r { t := some false })) ∧
      (runs .cmps → retires (.cmps q false f) (endRegs r { z := some true, c := some false, n := some false, v := some false })) ∧
      (runs .filt → retires (.filt q false f) (endRegs fresh filtZ))) ∧
    (n ≠ 0 →
      (runs .copy → (copyOverlap r f = false → begins (.copy q false f) .copy false) ∧
        (copyOverlap r f = true → Raises (.copy q false f) q s (c.abandon q)
          { vec := 4, cause := 0x31, seg := f.sd, eaddr := BitVec.ofNat 16 (r.wd f / 0x10000) })) ∧
      (runs .crcs → begins (.crcs q false f) .crcs false) ∧ (runs .matchS → begins (.matchS q f) .matchS false) ∧
      (runs .dgst → begins (.dgstP q f) .dgst false) ∧ (runs .fills → begins (.fills q v f) .fills v) ∧
      (runs .cmps → begins (.cmps q false f) .cmps false) ∧
      (runs .hashs → 8 ≤ wp.toNat → wp.toNat ≤ 15 → c.streamCheck q f.sd .scratch (r.wd f) wide .swrite = .ok a →
        (r.wd f % 2 = 1 → Raises (.hashs q false f) q s (c.abandon q)
          { vec := 2, cause := 0x10, seg := f.sd, eaddr := BitVec.ofNat 16 (r.wd f) }) ∧
        (r.wd f % 2 = 0 → 4 ≤ n → begins (.hashs q false f) .hashs false) ∧
        (r.wd f % 2 = 0 → n < 4 → retires (.hashs q false f) (endRegs r {}))) ∧
      (runs .scan → c.streamCheck q f.sd .scratch (r.wd f) 32 .sread = .ok a → c.memRead q a 32 = .ok b bs →
        latches (.scan q v f) .scan v r) ∧
      (runs .matchF → 1 ≤ wp.toNat → wp.toNat ≤ 32 → c.streamCheck q f.sd .scratch (r.wd f) wp.toNat .sread = .ok a →
        c.memRead q a wp.toNat = .ok b bs →
        (wp.toNat ≤ n → latches (.matchF q f) .matchF true r) ∧
        (n < wp.toNat → ends (.matchF q f) (endRegs r { t := some false }))) ∧
      (runs .filt → c.streamCheck q f.sd .scratch (wp.toNat % 0x10000) 32 .sread = .ok a → c.memRead q a 32 = .ok b bs →
        (filtOk bs = false → Raises (.filt q false f) q s ((b.consumeChunks q 1 (2 ^ 52)).abandon q) (illegal r.pc 0x07)) ∧
        (filtOk bs = true → imgNat bs 0 2 ≤ n → latches (.filt q false f) .filt false fresh) ∧
        (filtOk bs = true → n < imgNat bs 0 2 → ends (.filt q false f) (endRegs fresh filtZ))))

/-- STREAM_STEP over scratch operands (R175, R192 to R197, R198, R200, R201): a step covers up to 32 bytes, candidates or 8 windows
and issues one word of its class; COPY moves bytes in order, so that overlapping ones repeat, FILLS writes the pattern counted
from where it began, CRCS runs the CRC, SCAN, MATCH and CMPS stop at the first byte or pair they look for (CMPS under CT never),
MATCH.F at the first position of its pattern, HASHS inserts its windows in order, FILT copies the records it selects and counts
them, DGST.P gives its bytes to the session. The registers advance by what was covered. BOUND suspends before a step with RES = 1 and
the registers as they stand (R176); a failed check of the source faults so too (R179). -/
def Obligations.StreamStepsAdvance : Prop :=
  (∀ (q : SeqId) (l : LongOp) (s a b : State) (ea ed : Nat) (xs ys : List Byte), AtStep s q l →
    let r := s.regs q
    let f := l.f
    let wx := r.wx f
    let n := min 32 wx
    let on : LongOp := { l with starved := false }
    let steps (p : State → Prop) : Prop := Does (.streamStep q) s p
    let src (m : Nat) : Prop := Desc.window (r.seg f.ss) = false ∧ s.streamCheck q f.ss .any (r.ws f) m .sread = .ok ea ∧
      s.memRead q ea m = .ok a xs
    (wx ≠ 0 → l.kind = .copy → src n → Desc.window (r.seg f.sd) = false → s.streamCheck q f.sd .any (r.wd f) n .swrite = .ok ed →
      a.memWrite q ed ((List.range n).map fun j => xs.getD (if ea < ed ∧ ed < ea + n then j % (ed - ea) else j) 0) = .ok b () →
      steps (Stepped s q 6 on (r.adv f true true n) {} b.mem)) ∧
    (wx ≠ 0 → l.kind = .fills → Desc.window (r.seg f.sd) = false → s.streamCheck q f.sd .any (r.wd f) n .swrite = .ok ed →
      s.memWrite q ed ((List.range n).map fun j =>
        (r.wp f).extractLsb' (if l.v then 8 * ((r.wd f + 2 ^ 32 - l.base + j) % 4) else 0) 8) = .ok b () →
      steps (Stepped s q 6 l (r.adv f false true n) {} b.mem)) ∧
    (wx ≠ 0 → l.kind = .crcs → src n → ∀ x, IsCrc r.crc (r.W f.rd) xs x →
      let r' := (r.setW f.rd x).adv f true false n
      steps (Stepped s q 7 on r' { z := some (lowBits (r'.W f.rd) r.crc.width == 0) } a.mem)) ∧
    (wx ≠ 0 → l.kind = .scan → l.differ = none → src n →
      let hit (x : Byte) : Bool := bit (l.table.getD (x.toNat / 8) 0) (x.toNat % 8) != l.v
      ((∀ x ∈ xs, hit x = false) → steps (Stepped s q 7 on (r.adv f true false n) { t := some false } a.mem)) ∧
      ∀ j (h : j < xs.length), (∀ x ∈ xs.take j, hit x = false) → hit xs[j] = true →
        steps (StepEnds s q 7 (r.adv f true false j) { t := some true } a.mem)) ∧
    (wx ≠ 0 → (l.kind = .matchS ∨ l.kind = .cmps) → src n → Desc.window (r.seg f.sd) = false →
      s.streamCheck q f.sd .any (r.wd f) n .sread = .ok ed → a.memRead q ed n = .ok b ys →
      let ct := l.kind = .cmps ∧ bit r.st stCT = true
      let fl (d : Option (Byte × Byte)) : Flags := if l.kind = .matchS then { t := some d.isSome } else cmpsFlags d
      (xs = ys → steps (Stepped s q 7 on (r.adv f true true n) (fl l.differ) b.mem)) ∧
      ∀ j (h : j < xs.length) (h' : j < ys.length), xs.take j = ys.take j → xs[j] ≠ ys[j] →
        let d := l.differ.or (some (xs[j], ys[j]))
        (¬ct → steps (StepEnds s q 7 (r.adv f true true j) (fl d) b.mem)) ∧
        (ct → steps (Stepped s q 7 { on with differ := d } (r.adv f true true n) (fl d) b.mem))) ∧
    (l.kind = .matchF → l.differ = none → 1 ≤ l.table.length → l.table.length ≤ wx →
      let k := l.table.length
      let m := min 32 (wx + 1 - k)
      src (m + k - 1) →
      ((∀ j, j < m → (xs.drop j).take k ≠ l.table) →
        steps (Stepped s q 7 on (r.adv f true false m) { t := some false } a.mem)) ∧
      ∀ j, j < m → (∀ i, i < j → (xs.drop i).take k ≠ l.table) → (xs.drop j).take k = l.table →
        steps (StepEnds s q 7 (r.adv f true false j) { t := some true } a.mem)) ∧
    (l.kind = .hashs → 4 ≤ wx →
      let w := (r.wp f).toNat % 16
      let m := min 8 (wx - 3)
      s.streamCheck q f.sd .scratch (r.wd f) (2 * 2 ^ w) .swrite = .ok ed → r.wd f % 2 = 0 → src (m + 3) →
      (∀ h, h < 2 ^ w → (∀ o, placeOf (ed + 2 * h) ≠ .ctx o) ∧ a.memReach q (ed + 2 * h) 2 = .ok a ()) →
      steps (Stepped s q 6 on (r.adv f true false m) {} (hashTable w ed ea (r.ws f) a.mem m))) ∧
    (l.kind = .filt → 1 ≤ l.rsize → l.remaining r ≠ 0 → Desc.window (r.seg f.ss) = false →
      let m := min 32 (l.remaining r)
      s.streamCheck q f.ss .any (r.ws f + l.rest.length) m .sread = .ok ea → s.memRead q ea m = .ok a xs →
      let all := l.rest ++ xs
      let k := all.length / l.rsize
      let sel := ((List.range k).map fun i => (all.drop (i * l.rsize)).take l.rsize).filter (filtSelect l.table)
      let out := if bit (l.table.getD 6 0) 1 then [] else sel.flatten
      (out = [] ∧ b = a ∨ s.streamCheck q f.sd .scratch (r.wd f) out.length .swrite = .ok ed ∧
        a.memReach q ed out.length = .ok a () ∧ a.memWrite q ed out = .ok b ()) →
      let r1 := (r.adv f true false (k * l.rsize)).setW f.rd (BitVec.ofNat 32 (r.wd f + out.length))
      let r2 := r1.setW (f.rx + 1) (BitVec.ofNat 32 (((r.wp f).toNat / 65536 + sel.length) % 65536 * 65536 + (r.wp f).toNat % 65536))
      steps (Stepped s q 6 { on with rest := all.drop (k * l.rsize) } r2 { z := some (decide ((r2.wp f).toNat < 65536)) } b.mem)) ∧
    (wx ≠ 0 → l.kind = .dgst → src n →
      (a.sessionOf r.ctxid = none →
        steps (Stepped s q 7 { on with lost := true } (r.adv f true false n) { z := some false } a.mem)) ∧
      ∀ i, a.sessionOf r.ctxid = some i →
        let x := a.dg.ses[i]
        x.err = 0 → x.user = none → a.dgTransit i = 0 → x.count + x.buf.length + n < 2 ^ 61 → x.buf.length + n < x.block →
        steps fun t => Stepped s q 7 on (r.adv f true false n) { z := some (!l.lost) } a.mem t ∧
          t.dg.ses = a.dg.ses.set i { x with buf := x.buf ++ xs }) ∧
    (∀ e, wx ≠ 0 → l.kind ∈ [.copy, .crcs, .scan, .matchS, .cmps, .dgst] →
      s.streamCheck q f.ss .any (r.ws f) n .sread = .error e → exec (.streamStep q) s = .next (s.stepFault q e))) ∧
  (∀ (q : SeqId) (l : LongOp) (s : State), Issuing s q → (s.seq q).wait = .long l → ¬ (l.kind = .dgst ∧ l.v = true) → l.loaded = true →
    (s.seq q).bound = true → Does (.streamStep q) s fun t => (t.seq q).wait = .none ∧ t.mem = s.mem ∧
      t.regs q = { s.regs q with st := (t.regs q).st } ∧ bit (t.regs q).st stRES = true ∧
      ∀ j, j ≠ stRES → bit (t.regs q).st j = bit (s.regs q).st j) ∧
  (∀ x y : Byte, StIs 0 ((cmpsFlags (some (x, y))).apply 0) (some (decide (x = y))) (some (decide (x.toNat < y.toNat)))
    (some (x - y).msb) (some (decide ((x - y).toInt ≠ x.toInt - y.toInt))) (some (parity (x - y))) none) ∧
  ∀ d rec_ : List Byte,
    let x := filtField d rec_
    let key := imgNat d 8 8
    let hi := imgNat d 16 8
    let op := imgNat d 5 1
    (filtSelect d rec_ = true ↔ op = 0 ∧ x = key ∨ op = 1 ∧ x ≠ key ∨ op = 2 ∧ x < key ∨ op = 3 ∧ key ≤ x ∨
      op = 4 ∧ key ≤ x ∧ x ≤ hi ∨ op = 5 ∧ ¬(key ≤ x ∧ x ≤ hi) ∨ op = 6 ∧ Nat.land x hi = key ∨ 7 ≤ op)

/-- FETCH, PUT and WAITT (R186, R187, R189, R191): with L = 0 nothing is checked or started; a length above 1 MiB is ILLEGAL; else
the checked request joins those that wait and the instruction waits for its issue. WAITT reads and clears XFAIL once XCNT is
low enough. A FETCH without V that finds its line, not yet answered, binds it and retires with its transfer (R206). -/
def Obligations.TransfersBegin : Prop :=
  ∀ (q : SeqId) (f : FormS) (fw : FormRI) (s : State) (e d : Nat) (i : Fin 16),
    let r := s.regs q
    let c := fetched q s
    let n := r.wx f
    let g := galOf q
    let res (a : State) : State := a.modRegs q fun r => { r with st := putBit r.st stRES false }
    let waits (i : Instr) (addr : Nat) (p : Purpose) : Prop := Does i s fun t =>
      ∃ m, (t.gal g).md.waiting = (c.gal g).md.waiting ++ [m] ∧ m.addr = addr ∧ m.len = n ∧ m.seq = q ∧ m.ctx = r.ctxid ∧
        m.purpose = p ∧ (t.seq q).wait = .media m.rid ∧ t.regs q = r ∧ t.mem = c.mem
    (canRun q (((tW f.rs).or (tW f.rd)).or (tW f.rx)) s = true →
      (n = 0 → RunsTo (.fetch q true f) q s (res c) ∧ RunsTo (.fetch q false f) q s (res c) ∧ RunsTo (.put q false f) q s (res c)) ∧
      (0x100000 < n → ∀ i, i ∈ [Instr.fetch q true f, .fetch q false f, .put q false f] → Raises i q s c (illegal r.pc 0x07)) ∧
      Raises (.put q true f) q s c (illegal r.pc 0x02) ∧
      (0 < n → n ≤ 0x100000 →
        (c.streamCheck q f.ss .window (r.ws f) n .sread = .ok e → c.streamCheck q f.sd .own (r.wd f) n .swrite = .ok d →
          c.banksReady g (d % 0x100000) n = none →
          waits (.fetch q true f) e (.fetch c.work.nextXid false d) ∧
          (c.fetchLine q e (min n 4096) = none → waits (.fetch q false f) e (.fetch c.work.nextXid false d)) ∧
          (c.fetchLine q e n = some i → n ≤ 4096 → c.ctxXcnt r.ctxid < 64 → (c.gal g).lines[i].outcome = none →
            Does (.fetch q false f) s fun t =>
              (t.regs q).pc = r.pc + 4 ∧ (t.seq q).wait = .none ∧ (t.gal g).md.waiting = (c.gal g).md.waiting ∧
              (t.gal g).lines[i] = { (c.gal g).lines[i] with bound := some c.work.nextXid, dest := d } ∧
              ∃ tr, t.work.xfers = c.work.xfers ++ [tr] ∧ tr.xid = c.work.nextXid ∧ tr.ctx = r.ctxid ∧ tr.len = n ∧ tr.isPut = false)) ∧
        (c.streamCheck q f.ss .own (r.ws f) n .sread = .ok e → c.streamCheck q f.sd .window (r.wd f) n .swrite = .ok d →
          c.banksReady g (e % 0x100000) n = none → waits (.put q false f) d (.put c.work.nextXid e)))) ∧
    (canRun q ((tW fw.rd).or (tSt 0x01)) s = true → fw.minor = 0 → fw.imm.toNat < 64 →
      let x := BitVec.ofNat 32 (c.ctxXfail r.ctxid)
      (c.ctxXcnt r.ctxid ≤ fw.imm.toNat → ∃ st, bit st stZ = decide (x = 0) ∧ bit st stRES = false ∧
        RunsTo (.waitt q fw) q s ((c.setCtxField r.ctxid 0x10 4 0).modRegs q fun _ => wroteW r fw.rd x st)) ∧
      (fw.imm.toNat < c.ctxXcnt r.ctxid →
        HoldsAt (.waitt q fw) q s (c.modSeq q fun x => { x with wait := .waitt fw.imm.toNat fw.rd })))

/-! ### The media channel -/

/-- MEDIA_REQUEST_ISSUE and CREDIT_GRANT (R56, R186, R189, R271, R272): the request picked takes its tag, one request credit and
its read-data credits, and the FETCH or PUT that waits for it retires with one transfer more; a credit above its maximum is
given back and sets CROVF. -/
def Obligations.RequestsAndCredits : Prop :=
  ∀ (g : GalId) (tag : Fin 1024) (m : MReq) (s : State),
    let md := (s.gal g).md
    (s.logicOn g = true → md.rq ≠ 0 → (∀ t ∈ md.tags, t.tag ≠ tag) → s.pickReq g = some m →
      Does (.mediaRequestIssue g tag) s fun t =>
        let w := m.purpose.isWrite
        (t.gal g).md.rq = md.rq - 1 ∧ (t.gal g).md.rd = md.rd - (if w then 0 else (m.len + 4095) / 4096) ∧
        (∃ y : Tag, (t.gal g).md.tags = md.tags ++ [y] ∧ y.tag = tag ∧ y.req = m ∧ y.delivered = 0 ∧ y.sent = 0 ∧
          y.sump = false ∧ y.orphan = false ∧ y.age = 0 ∧ y.sourceUe = false ∧ y.noResv = !(w && s.pow.holdEn) ∧
          y.resv = (if w && s.pow.holdEn then s.pow.wrtok * ((m.len + 4095) / 4096) else 0)) ∧
        ((s.seq m.seq).wait ≠ .media m.rid → t.mem = s.mem ∧ t.work = s.work) ∧
        ((s.seq m.seq).wait = .media m.rid → (t.seq m.seq).wait = .none ∧ (t.regs m.seq).pc = (s.regs m.seq).pc + 4 ∧
          ∀ x a, m.purpose = .put x a ∨ m.purpose = .fetch x false a → ∃ tr, t.work.xfers = s.work.xfers ++ [tr] ∧ tr.xid = x ∧
            tr.ctx = (s.regs m.seq).ctxid ∧ tr.len = m.len ∧ tr.isPut = w)) ∧
    (s.present g = true →
      (md.rq < 255 → exec (.creditGrant g .request) s = .next ((s.led g 0 1).modMd g fun m => { m with rq := m.rq + 1 })) ∧
      (255 ≤ md.rq → exec (.creditGrant g .request) s = .next (((s.led g 0 1).led g 1 1).modMd g fun m => { m with crovf := true })) ∧
      (md.rd < 4095 → exec (.creditGrant g .readData) s = .next ((s.led g 4 1).modMd g fun m => { m with rd := m.rd + 1 })) ∧
      (4095 ≤ md.rd → exec (.creditGrant g .readData) s = .next (((s.led g 4 1).led g 5 1).modMd g fun m => { m with crovf := true })) ∧
      (md.wd < 4095 → exec (.creditGrant g .writeData) s = .next ((s.led g 8 1).modMd g fun m => { m with wd := m.wd + 1 })) ∧
      (4095 ≤ md.wd → exec (.creditGrant g .writeData) s = .next (((s.led g 8 1).led g 9 1).modMd g fun m => { m with crovf := true })))

/-- READ_BEAT and WRITE_BEAT (R274): the bytes of a FETCH's beat that is not sunk go to scratch, those of a run-ahead read to
their line, a beat without a tag sets MDERR.BEAT; a beat of a PUT spends one write-data credit and carries up to 16 source bytes
as they stand, those of an uncorrectable codeword as 0 (R188), which buffer memory then holds (log 61). -/
def Obligations.BeatsMoveBytes : Prop :=
  ∀ (g : GalId) (tag : Fin 1024) (nb : BitVec 6) (data : BitVec 256) (x : Tag) (s : State), s.present g = true →
    let md := (s.gal g).md
    ((∀ y ∈ md.tags, y.tag ≠ tag) → exec (.readBeat g tag nb data) s = .next (s.modMd g fun m => { m with beat := true })) ∧
    (md.tags.find? (fun y => y.tag = tag && !y.req.purpose.isWrite) = some x → x.sump = false → MemOk s →
      ∀ xid sec dest, x.req.purpose = .fetch xid sec dest → nb.toNat ≤ 32 → nb.toNat ≤ x.req.len - x.delivered →
        Does (.readBeat g tag nb data) s fun t =>
          Stored s t (dest + x.delivered) ((leBytes 32 data.toNat).take nb.toNat) ∧ t.seqs = s.seqs ∧
          ∀ y ∈ (t.gal g).md.tags, y.tag = tag → ∃ z ∈ md.tags, z.tag = tag ∧ y = { z with delivered := z.delivered + nb.toNat }) ∧
    (md.tags.find? (fun y => y.tag = tag && !y.req.purpose.isWrite) = some x → x.sump = false →
      ∀ i : Fin 16, x.req.purpose = .spec i → nb.toNat ≤ 32 → nb.toNat ≤ x.req.len - x.delivered →
        Does (.readBeat g tag nb data) s fun t => t.mem = s.mem ∧ t.seqs = s.seqs ∧
          (t.gal g).lines[i].bytes = (s.gal g).lines[i].bytes ++ (leBytes 32 data.toNat).take nb.toNat) ∧
    (md.tags.find? (fun y => y.tag = tag && !y.req.purpose.isWrite) = some x → x.sump = true →
      Does (.readBeat g tag nb data) s fun t => t.mem = s.mem ∧ (t.gal g).md.sumpBytes = md.sumpBytes + nb.toNat) ∧
    (md.wd ≠ 0 → md.nextWrite = some x → ∀ xid a, x.req.purpose = .put xid a → Does (.writeBeat g) s fun t =>
      ∃ bs, bs.length = min 16 (x.req.len - x.sent) ∧
        (∀ k (h : k < bs.length), bs[k] = if s.ecc.ue.contains ((a + x.sent + k) / 8 * 8) then 0 else s.mem.get (a + x.sent + k)) ∧
        (t.gal g).md.wd = md.wd - 1 ∧ (t.gal g).md.lastBeat = some (x.tag, bs) ∧
        (regionOf x.req.addr ≠ 1 → t.mem = s.mem) ∧ (regionOf x.req.addr = 1 → MemOk s → Stored s t (x.req.addr + x.sent) bs))

/-- MEDIA_RESPONSE, MEDIA_TIMEOUT and TRANSFER_RETIRE (R189, R208, R273, R275): a response without a tag sets BADTAG, that of a
PUT removes its tag, gives the transfer the resolved code and releases the run-ahead lines it overlaps; a tag that has aged TMO
ticks is orphaned; the context's oldest transfer retires once answered, XCNT falls, the first failure stays in XFAIL and raises
vector 25 where the context is bound, and a WAITT whose hold ends retires with XFAIL (R191). -/
def Obligations.ResponsesResolve : Prop :=
  ∀ (g : GalId) (tag : Fin 1024) (st : BitVec 2) (dlen : BitVec 21) (c : Half) (x : Tag) (tr : Xfer) (q : SeqId) (s : State),
    let md := (s.gal g).md
    (s.present g = true →
      ((∀ y ∈ md.tags, y.tag ≠ tag) → Does (.mediaResponse g tag st dlen) s fun t =>
        (t.gal g).md.badtag = true ∧ (t.gal g).md.tags = md.tags ∧ t.mem = s.mem ∧ t.work = s.work) ∧
      (md.tags.find? (fun y => y.tag = tag) = some x → x.sump = false → ∀ xid a, x.req.purpose = .put xid a → x.sourceUe = false →
        Does (.mediaResponse g tag st dlen) s fun t =>
          (∀ y ∈ (t.gal g).md.tags, y.tag ≠ tag) ∧ t.mem = s.mem ∧
          (∀ z ∈ md.tags, z.tag ≠ tag → ∃ y ∈ (t.gal g).md.tags, y = z ∨ y = { z with sump := true }) ∧
          (∀ (h : GalId) (k : Fin 16), s.present h = true →
            let l := (t.gal h).lines[k]
            ¬(l.busy = true ∧ l.chunk = false ∧ l.bound = none ∧ l.e < x.req.addr + x.req.len ∧ x.req.addr < l.e + l.m)) ∧
          ∀ y ∈ t.work.xfers, y.xid = xid → y.first.isSome = true ∧
            ((∃ z ∈ s.work.xfers, z.xid = xid ∧ z.first = none ∧ y = { z with first := some (
              if st = 0 ∧ dlen.toNat = x.req.len then outOK else outERROR, dlen.toNat) }) ∨
             ∃ z ∈ s.work.xfers, z.first.isSome = true ∧ y = z)) ∧
      (md.tags.find? (fun y => y.tag = tag) = some x → x.orphan = false → md.tmo.toNat ≤ x.age →
        Does (.mediaTimeout g tag) s fun t => (t.gal g).md.tmoErr = true ∧ t.mem = s.mem ∧
          ∀ y ∈ (t.gal g).md.tags, y.tag = tag → y.orphan = true ∧ y.sump = true ∧ y.resv = 0)) ∧
    (s.work.xfers.find? (fun y => y.ctx == c) = some tr →
      (tr.result = none → exec (.transferRetire c) s = .next s) ∧
      (∀ code len, tr.result = some (code, len) →
        let s1 : State := { s with work := { s.work with xfers := s.work.xfers.filter fun y => y.xid ≠ tr.xid } }
        let s2 := s1.setCtxField c 0x14 1 (s.ctxXcnt c - 1)
        let s3 := if code ≠ outOK ∧ s2.ctxXfail c = 0 then s2.setCtxField c 0x10 4 (code.toNat * 2 ^ 24 + len % 2 ^ 24) else s2
        let s4 := if code ≠ outOK then s3.irq q 9 else s3
        (s.boundSeq c = none → exec (.transferRetire c) s = .next s3) ∧
        (s.boundSeq c = some q →
          ((∀ n rd, (s.seq q).wait ≠ .waitt n rd) → exec (.transferRetire c) s = .next s4) ∧
          ∀ n rd, (s.seq q).wait = .waitt n rd →
            (n < s4.ctxXcnt c → exec (.transferRetire c) s = .next s4) ∧
            (s4.ctxXcnt c ≤ n → (s.seq q).bound = false → (s.seq q).issues = true →
              let v := BitVec.ofNat 32 (s4.ctxXfail c)
              ∃ st, bit st stZ = decide (v = 0) ∧ bit st stRES = false ∧ Does (.transferRetire c) s
                (WaitOver q ((s4.setCtxField c 0x10 4 0).modRegs q fun r => wroteW r rd v st) ((s.regs q).pc + 4))))))

/-- Run-ahead (R202 to R204, R208): it starts on a copy of the registers at the next instruction, runs permitted instructions on
the copy alone, ends at any other, and its unbound lines are released at their age. -/
def Obligations.RunAheadIsSpeculative : Prop :=
  ∀ (q : SeqId) (i : ShadowInstr) (h : Shadow) (g : GalId) (line : Fin 16) (s : State),
    (Issuing s q → (s.seq q).bound = false → (s.seq q).ra.en = true → (s.seq q).ra.maxl ≠ 0 → (s.seq q).ra.shadow = none →
      s.raWaits q = true → exec (.runAheadStart q) s = .next (s.modSeq q fun x =>
        let h0 : Shadow := { b := x.regs.b, a := x.regs.a, st := x.regs.st.setWidth 6, pc := x.regs.pc + 4, count := 0 }
        { x with ra := { x.ra with shadow := some h0 } })) ∧
    ((s.seq q).ra.shadow = some h → ∃ t, exec (.shadowInstruction q i) s = .next t ∧ t.mem = s.mem ∧ t.regs q = s.regs q ∧
      (t.seq q).wait = (s.seq q).wait ∧ (i = .other → (shadowTouch i).meets (s.seq q).pool = false → (t.seq q).ra.shadow = none)) ∧
    ((s.seq q).ra.shadow = some h → Issuing s q → (s.seq q).bound = false → s.raWaits q = true → (s.seq q).pool = none →
      ∀ op rd rs u bs, i = .wide op rd rs → s.shadowRead q (h.regs (s.regs q)) 0 h.pc.toNat 4 .exec = some (u, bs) →
        let r := wideRun op rd rs (h.regs (s.regs q))
        let h1 : Shadow := { b := r.b, a := r.a, st := r.st.setWidth 6, pc := h.pc + 4, count := h.count + 1 }
        exec (.shadowInstruction q i) s = .next ((u.routine q (wordsOf (wideInstr q op rd rs))).modSeq q fun x => { x with
          ra := { x.ra with shadow := if h.count < 255 then some h1 else none } })) ∧
    (let l := (s.gal g).lines[line]
     s.logicOn g = true → l.busy = true → l.chunk = false → l.bound = none → (s.seq l.seq).ra.age.toNat ≤ l.age →
      Does (.lineAgeExpiry g line) s fun t => (t.gal g).lines[line] = {} ∧ t.mem = s.mem ∧
        (∀ k, k ≠ line → (t.gal g).lines[k] = (s.gal g).lines[k]) ∧
        (t.seq l.seq).ra.rel = (if (s.seq l.seq).ra.rel = 255 then 255 else (s.seq l.seq).ra.rel + 1))

/-! ### The digest port -/

/-- DGST.C (R199, R284 to R286, R289): OPEN and LOAD give the bound context a session; FINAL, CHECK and SAVE check their operand
and wait for the port's transactions, or for a bank that wakes first; SAVE of a session outside the engine writes its image at
once; ABORT closes a session that the engine does not hold, and waits for the transaction of one it holds; each ends at once with
its outcome code where the table of R286 gives one. -/
def Obligations.DigestOperationsBegin : Prop :=
  ∀ (q : SeqId) (f : FormS) (s b : State) (i : Fin 256) (a : Nat) (bs : List Byte),
    let r := s.regs q
    let c := fetched q s
    let wd := r.W f.rd
    let x := s.dg.ses[i]
    let off := (r.W f.rs).toNat
    let code (i : Instr) (n : BitVec 4) : Prop := Does i s fun t => DgstRetires q f s t n ∧ t.dg = s.dg
    let closes (j : Instr) (n : BitVec 4) : Prop := Does j s fun t => DgstRetires q f s t n ∧ t.dg.ses = s.dg.ses.set i {}
    let opened (t : State) (y : Session) : Prop := ∃ j : Fin 256, j.val < 252 ∧ (c.dg.ses[j]).opened = false ∧
      t.dg.ses = c.dg.ses.set j y
    let waits (op : DgOp) (t : State) : Prop := (t.seq q).wait = .digest op f ∧ (t.dg.ses[i]).user = some q ∧
      t.regs q = r ∧ t.mem = c.mem
    let asleep (j : Instr) (op : DgOp) : Prop := HoldsAt j q s (b.modSeq q fun x => { x with wait := .operand op f })
    let dest (n : Nat) : Prop := c.streamCheck q f.ss .any off n .swrite = .ok a
    let isWindow : Prop := Desc.window (r.seg f.ss) = true
    let slot := (wd.extractLsb' 16 8).toNat
    let mayKey : Bool := r.priv || (if slot < 32 then bit s.dg.mask0 slot else slot < 64 && bit s.dg.mask1 (slot - 32))
    (canRun q (dgstTouch f false false) s = true → c.dg = s.dg →
      (ControlWord wd 1 →
        (r.ctxid = 0xFFFF → code (.dgstOpen q f) dgNOSESS) ∧
        (r.ctxid ≠ 0xFFFF → s.sessionOf r.ctxid = some i → code (.dgstOpen q f) dgISOPEN) ∧
        (r.ctxid ≠ 0xFFFF → s.sessionOf r.ctxid = none →
          (bit wd 12 = true → mayKey = false → code (.dgstOpen q f) dgDENIED) ∧
          ((bit wd 12 = true → mayKey = true) →
            (c.sesFree = [] → code (.dgstOpen q f) dgNOSESS) ∧
            (c.sesFree ≠ [] → Does (.dgstOpen q f) s fun t => DgstRetires q f s t 0 ∧
              opened t { opened := true, ctx := r.ctxid, hmac := bit wd 12, alg := wd.extractLsb' 8 2,
                         slot := if bit wd 12 then wd.extractLsb' 16 8 else 0 })))) ∧
      (ControlWord wd 6 → s.sessionOf r.ctxid = none → code (.dgstAbort q f) 0) ∧
      (ControlWord wd 6 → s.sessionOf r.ctxid = some i → s.dg.holder ≠ some i → closes (.dgstAbort q f) 0) ∧
      (ControlWord wd 6 → s.sessionOf r.ctxid = some i → s.dg.holder = some i →
        Does (.dgstAbort q f) s fun t => waits .abort t ∧ t.dg.txn = some (.abort, i))) ∧
    (canRun q (dgstTouch f true false) s = true → c.dg = s.dg → s.sessionOf r.ctxid = some i →
      (ControlWord wd 2 →
        (x.err ≠ 0 → closes (.dgstFinal q f) x.err) ∧
        (x.err = 0 → x.buf.length % x.block ≠ 0 → closes (.dgstFinal q f) dgPARTIAL) ∧
        (x.err = 0 → x.buf.length % x.block = 0 → dest x.result →
          (isWindow ∨ c.memReach q a x.result = .ok c () → Does (.dgstFinal q f) s (waits .final)) ∧
          (¬isWindow → c.memReach q a x.result = .wait b → asleep (.dgstFinal q f) .final))) ∧
      (ControlWord wd 4 →
        (x.hmac = true → r.priv = false → code (.dgstSave q f) dgDENIED) ∧
        ((x.hmac = true → r.priv = true) →
          (x.err ≠ 0 → code (.dgstSave q f) x.err) ∧
          (x.err = 0 → dest 256 →
            (¬isWindow → c.memReach q a 256 = .wait b → asleep (.dgstSave q f) .save) ∧
            (isWindow ∨ c.memReach q a 256 = .ok c () →
              (s.dg.holder = some i ∨ x.started = false ∨ x.block ≤ x.buf.length → Does (.dgstSave q f) s (waits .save)) ∧
              (s.dg.holder ≠ some i → x.started = true → x.buf.length < x.block → ¬isWindow → c.memWrite q a x.image = .ok b () →
                Does (.dgstSave q f) s fun t => DgstRetires q f s t 0 ∧ t.mem = b.mem ∧ t.dg = s.dg))))) ∧
      (ControlWord wd 5 → r.ctxid ≠ 0xFFFF → code (.dgstLoad q f) dgISOPEN)) ∧
    (canRun q (dgstTouch f true false) s = true → c.dg = s.dg → s.sessionOf r.ctxid = none → r.ctxid ≠ 0xFFFF →
      (ControlWord wd 2 → code (.dgstFinal q f) dgNOSESS) ∧
      (ControlWord wd 4 → code (.dgstSave q f) dgNOSESS) ∧
      (ControlWord wd 5 → c.streamCheck q f.ss .any off 256 .sread = .ok a → ¬isWindow → c.memRead q a 256 = .ok b bs → b.dg = c.dg →
        (Session.ofImage bs r.ctxid = none → code (.dgstLoad q f) dgIMAGE) ∧
        ∀ y, Session.ofImage bs r.ctxid = some y →
          (y.hmac = true → r.priv = false → code (.dgstLoad q f) dgDENIED) ∧
          ((y.hmac = true → r.priv = true) →
            (c.sesFree = [] → code (.dgstLoad q f) dgNOSESS) ∧
            (c.sesFree ≠ [] → Does (.dgstLoad q f) s fun t => DgstRetires q f s t 0 ∧ opened t y)))) ∧
    (canRun q (dgstTouch f true true) s = true → c.dg = s.dg → ControlWord wd 3 →
      (s.sessionOf r.ctxid = none → Does (.dgstCheck q f) s fun t => DgstRetires q f s t dgNOSESS ∧ bit (t.regs q).st stT = false) ∧
      (s.sessionOf r.ctxid = some i →
        (x.err ≠ 0 → closes (.dgstCheck q f) x.err) ∧
        (x.err = 0 → x.buf.length % x.block ≠ 0 → closes (.dgstCheck q f) dgPARTIAL) ∧
        (x.err = 0 → x.buf.length % x.block = 0 → c.streamCheck q f.ss .any off x.result .sread = .ok a → ¬isWindow →
          (c.memRead q a x.result = .wait b → asleep (.dgstCheck q f) .check) ∧
          (c.memRead q a x.result = .ok b bs → Does (.dgstCheck q f) s fun t => (t.seq q).wait = .digest .check f ∧
            (t.dg.ses[i]).user = some q ∧ (t.dg.ses[i]).reference = bs ∧ t.regs q = r))))

/-- The digest port's side (R284 to R286, R288 to R290): the first waiting session, one of the MP's before a context's, gains an
idle engine, whose holder yields by a READOUT; INIT and RESTORE start a session, a BLOCK adds its bytes to the count, FINISH and a
SAVE's READOUT write their bytes and end the instruction, ABORT ends its own; an error or a time limit leaves its code in the
session; the comparator's pair settles a CHECK: equal, not equal, or a glitch that is counted. -/
def Obligations.DigestTransactionsEnd : Prop :=
  ∀ (i j : Fin 256) (q : SeqId) (f : FormS) (data : BitVec 512) (p : CmpPair) (s b : State) (a : Nat),
    let x := s.dg.ses[i]
    let r := s.regs q
    let off := (r.W f.rs).toNat
    let bytes := leBytes 64 data.toNat
    let waiting (but : Option (Fin 256)) : List (Fin 256) := s.dg.waiting.filter fun k => but ≠ some k
    let first (but : Option (Fin 256)) : Option (Fin 256) :=
      ((waiting but).find? fun k => decide (252 ≤ k.val)).orElse fun _ => (waiting but).head?
    (s.dg.txn = none → s.dg.cmpWait = none → first s.dg.holder = some i →
      (s.dg.holder = none → s.dgWork i ≠ none →
        Does .digestGrant s fun t => t.dg.holder = some i ∧ t.dg.txn = some (if x.started then .restore else .init, i) ∧
          t.dg.waiting = s.dg.waiting.filter (· ≠ i) ∧ t.dg.ses = s.dg.ses ∧ t = { s with dg := t.dg } ∧
          (i.val < 252 → t.dg.rotor.val = (i.val + 1) % 252) ∧ (252 ≤ i.val → t.dg.rotor = s.dg.rotor)) ∧
      (s.dg.holder = some j → (s.dg.ses[j]).opened = true → (s.dg.ses[j]).started = true → (s.dg.ses[j]).err = 0 →
        exec .digestGrant s = .next { s with dg := { s.dg with txn := some (.readout, j) } })) ∧
    ((s.dg.txn = some (.init, i) ∨ s.dg.txn = some (.restore, i)) → x.opened = true →
      (Does (.digestTransactionDone false data) s fun t => (t.dg.ses[i]).started = true ∧ t.seqs = s.seqs) ∧
      (x.user = none → x.err = 0 → Does (.digestTransactionDone true data) s fun t => (t.dg.ses[i]).err = dgKEY ∧
        t.dg.txn = none ∧ t.dg.holder = none ∧ t.seqs = s.seqs)) ∧
    (s.dg.txn = some (.block, i) → x.opened = true →
      (Does (.digestTransactionDone false data) s fun t => (t.dg.ses[i]).count = x.count + x.block ∧ t.seqs = s.seqs) ∧
      (x.user = none → x.err = 0 → Does (.digestTransactionDone true data) s fun t => (t.dg.ses[i]).err = dgPORT ∧
        t.dg.txn = none ∧ t.dg.holder = none ∧ t.seqs = s.seqs) ∧
      (x.err = 0 → Does .digestTransactionTimeout s fun t => (t.dg.ses[i]).err = dgPORT ∧ t.dg.txn = some (.abort, i) ∧
        t.dg.tmo = (if s.dg.tmo = 255 then 255 else s.dg.tmo + 1))) ∧
    (s.dg.txn = some (.readout, i) → x.opened = true →
      (s.sesOp i = none → Does (.digestTransactionDone false data) s fun t =>
        t.dg.ses = s.dg.ses.set i { x with h := bytes.take x.chain } ∧ t.seqs = s.seqs ∧
        (first (some i) = some j → s.dgWork j ≠ none → t.dg.holder = some j)) ∧
      (s.sesOp i = some (q, .save, f) → x.buf.length < x.block → Desc.window (r.seg f.ss) = false →
        r.check f.ss off 256 .swrite = .ok a →
        s.memWrite q a ({ x with h := bytes.take x.chain } : Session).image = .ok b () →
        Does (.digestTransactionDone false data) s fun t => DgstRetires q f s t 0 ∧ t.mem = b.mem ∧ (t.dg.ses[i]).opened = true ∧
          (t.dg.ses[i]).user = none)) ∧
    (s.dg.txn = some (.finish, i) → x.opened = true → s.sesOp i = some (q, .final, f) → Desc.window (r.seg f.ss) = false →
      r.check f.ss off (bytes.take x.result).length .swrite = .ok a → s.memWrite q a (bytes.take x.result) = .ok b () →
      Does (.digestTransactionDone false data) s fun t => DgstRetires q f s t 0 ∧ t.mem = b.mem ∧ (t.dg.ses[i]).opened = false) ∧
    (s.dg.txn = some (.fincmp, i) → x.opened = true →
      exec (.digestTransactionDone false data) s = .next { s with dg := { s.dg with txn := none, cmpWait := some i } }) ∧
    (s.dg.txn = some (.abort, i) → x.opened = true → s.sesOp i = some (q, .abort, f) →
      Does (.digestTransactionDone false data) s fun t => DgstRetires q f s t x.err ∧ (t.dg.ses[i]).opened = false ∧ t.mem = s.mem) ∧
    (s.dg.cmpWait = some i → s.dg.txn = none → s.sesOp i = some (q, .check, f) →
      (p.eq = (!p.eqn) → Does (.comparatorAnswer p) s fun t => DgstRetires q f s t 0 ∧ bit (t.regs q).st stT = p.eq ∧
        t.dg.glitch = s.dg.glitch ∧ (t.dg.ses[i]).opened = false) ∧
      (p.eq = p.eqn → Does (.comparatorAnswer p) s fun t => DgstRetires q f s t dgGLITCH ∧ bit (t.regs q).st stT = false ∧
        t.dg.glitch = (if s.dg.glitch = 255 then 255 else s.dg.glitch + 1)) ∧
      Does .comparatorTimeout s fun t => DgstRetires q f s t dgGLITCH ∧ bit (t.regs q).st stT = false ∧
        t.dg.tmo = (if s.dg.tmo = 255 then 255 else s.dg.tmo + 1))

/-! ### Pairs and the causes served between instructions -/

/-- PAIR (R146, R147): the lowest cause of an illegal word raises ILLEGAL and runs neither slot; else both slots read the old
registers, each writes its own bytes, slot B decides a flag that both update, and one cycle of class CTRL is debited (R48). -/
def Obligations.PairsRunBothSlots : Prop :=
  ∀ (q : SeqId) (w : Word) (s : State), bit w 31 = true →
    let a := shortOf (w.extractLsb' 16 15)
    let b := shortOf (w.extractLsb' 1 15)
    canRun q (a.touch.or b.touch) s = true →
    let r := s.regs q
    let illegalBits := a.code = 0x1F ∨ b.code = 0x1F
    (illegalBits → RaisesFrom (.pair q w) q s ((fetched q s).routine q wordsLoose) (illegal r.pc 0x03)) ∧
    (¬illegalBits → bit w 0 = true → RaisesFrom (.pair q w) q s ((fetched q s).routine q wordsLoose) (illegal r.pc 0x04)) ∧
    (¬illegalBits → bit w 0 = false → (∃ i, i < 32 ∧ bit a.writes i = true ∧ bit b.writes i = true) →
      RaisesFrom (.pair q w) q s ((fetched q s).routine q wordsLoose) (illegal r.pc 0x05)) ∧
    (¬illegalBits → bit w 0 = false → (∀ i, i < 32 → bit a.writes i = false ∨ bit b.writes i = false) →
      Does (.pair q w) s fun t =>
        let r' := t.regs q
        let f := (s.seq q).bud.frac.toNat + s.cost 1
        r' = { r with b := r'.b, st := r'.st, pc := r.pc + 4 } ∧
        (∀ n : BitVec 5, r'.B n = if bit b.writes n.toNat then (b.run r).1.B n
          else if bit a.writes n.toNat then (a.run r).1.B n else r.B n) ∧
        bit r'.st 0 = ((b.run r).2.z.or (a.run r).2.z).getD (bit r.st 0) ∧
        bit r'.st 1 = ((b.run r).2.c.or (a.run r).2.c).getD (bit r.st 1) ∧
        bit r'.st 2 = ((b.run r).2.n.or (a.run r).2.n).getD (bit r.st 2) ∧
        bit r'.st 3 = ((b.run r).2.v.or (a.run r).2.v).getD (bit r.st 3) ∧
        bit r'.st 4 = ((b.run r).2.p.or (a.run r).2.p).getD (bit r.st 4) ∧ (∀ i, 5 ≤ i → bit r'.st i = bit r.st i) ∧
        (t.seq q).bud.frac = BitVec.ofNat 12 f ∧
        t.pow.debited = s.pow.debited + (if 4096 ≤ f then 1 else 0) ∧
        t.mem = (fetched q s).mem ∧ ∀ p, p ≠ q → t.seq p = s.seq p)

/-- The causes of BOUND in the order of R244: the FP trap's entry (R231), the unbind (R404), the halt (R364, R368), the tick
yield (R45), the interrupt of the highest level and lowest vector (R242), the tick acknowledgement (R250). Where what is in flight
lands first and sets a trap, the trap is entered in the service's place (R214, R232). -/
def Obligations.BoundaryCausesServed : Prop :=
  ∀ (q : SeqId) (s : State) (sw : Bool),
    let x := s.seq q
    let here (c : Cause) (p : State → Prop) : Prop := ∀ b, s.toBoundary q c.words = some b → p b
    let quiet (b : State) : Prop := ((b.landAll q).seq q).fptd = false
    (x.fptd = true → here .fptd fun b => exec (.fptrapEntry q) s = .next (b.enter q
      { vec := 6, ecause := 0x50, eaddr := (b.seq q).exc.trapAddr, framePc := (b.regs q).pc, ipc := (b.regs q).pc, kind := .fault }
      false)) ∧
    (x.fptd = false → x.unbind.isSome = true → here .unbind fun b =>
      (quiet b → Does (.unbindRequest q) s fun t =>
        (t.seq q).unbind = none ∧ (t.seq q).running = none ∧ (t.seq q).prods = [] ∧ (t.seq q).pool = none ∧ (t.seq q).lock = none) ∧
      (¬quiet b → exec (.unbindRequest q) s = .next ((b.landAll q).fptrap q))) ∧
    (x.fptd = false → x.unbind = none → x.haltNow = true → here .dhalt fun b =>
      let halted (t : State) : Prop := (t.seq q).dbg.halted = true ∧ (t.seq q).lock = none ∧
        (t.seq q).prods = [] ∧ (t.seq q).pool = none ∧ (t.regs q).pc = (b.regs q).pc ∧
        ((t.seq q).dbg.forced = true ↔ x.dbg.forced = true ∨ x.dbg.defer = true ∧ x.lock.isSome = true)
      (quiet b → Does (.debugHalt q) s halted ∧
        (x.dhalt = true → x.dbg.defer = true → x.lock.isSome = true → 64 ≤ x.dbg.defcnt.toNat →
          Does (.deferredHaltForced q) s halted)) ∧
      (¬quiet b → exec (.debugHalt q) s = .next ((b.landAll q).fptrap q))) ∧
    (x.fptd = false → x.unbind = none → x.haltNow = false → x.stepping = false →
      (x.bud.budx = true → here .budx fun b =>
        (quiet b → Does (.tickYield q) s fun t =>
          (t.seq q).run = .parked ∧ (t.seq q).lock = none ∧ (t.seq q).prods = [] ∧ (t.seq q).pool = none ∧
          (x.quantumUp = false → (t.seq q).running = x.running ∧ (t.regs q).pc = (b.regs q).pc ∧
            (t.regs q).b = ((b.seq q).landAll).regs.b)) ∧
        (¬quiet b → exec (.tickYield q) s = .next ((b.landAll q).fptrap q))) ∧
      (x.bud.budx = false → x.irqNow = true → here .irq fun b =>
        let y := b.seq q
        ∃ i, i < 16 ∧ bit y.exc.irqpend i = true ∧ y.regs.ml < y.exc.level i ∧
        (∀ j, j < 16 → bit y.exc.irqpend j = true → y.exc.level j < y.exc.level i ∨ y.exc.level j = y.exc.level i ∧ i ≤ j) ∧
        exec (.interruptEntry q) s = .next (b.enter q
          { vec := 16 + i, ecause := 0, eaddr := 0, framePc := y.regs.pc, ipc := y.regs.pc,
            kind := .int (BitVec.ofNat 3 (y.exc.level i)) } false)) ∧
      (x.bud.budx = false → x.irqNow = false → x.ticks = true → here .ticks fun b =>
        let t := b.modSeq q fun x => { x with ticks := false, exc := { x.exc with wdcount := x.exc.wdperiod } }
        exec (.tickAcknowledgement q false) s = .next t ∧
        (quiet b → (b.seq q).prefetch = none → exec (.tickAcknowledgement q sw) s = .next t)))

/-- The limits of R45, R46, R53, R250 and R336: CYCLEFT at 0 sets BUDX, 256 cc after BUDX or a TDEBT of 511 stall the sequencer,
the watchdog's expiry is a third fault, an expired quantum is noted; an instruction answered RETRY repeats, after 64 cc (R352); a
latched vector and a fetch fault are entered (R86, R243). -/
def Obligations.LimitsAndLatchedEntries : Prop :=
  ∀ (q : SeqId) (it : Item) (v : Nat) (a : State) (e : Exn) (s : State),
    let x := s.seq q
    (s.alive q = true →
      (x.spends = true → exec (.cycleBudgetExhausted q) s = .next (s.modSeq q fun x => { x with
        bud := { x.bud with cycleft := 0, budx := true } })) ∧
      (x.run = .active → x.dbg.halted = false →
        (x.bud.stuck = true ∨ 511 ≤ x.bud.tdebt ∨ x.bud.budx = true ∧ x.wait ≠ .none ∧ x.regs.ctxid ≠ 0xFFFF) →
        Does (.budgetStall q) s fun t =>
        (t.seq q).bud.stall = true ∧ (t.seq q).prods = [] ∧ (t.seq q).pool = none ∧ (t.seq q).issues = false ∧ OnlySeq q s t) ∧
      (x.exc.wdcount = 0 → x.run ≠ .mfault → x.run ≠ .stopped → x.dbg.halted = false →
        Does (.sequencerWatchdogExpiry q) s fun t => t.regs q = {} ∧ (t.seq q).running = none ∧ (t.seq q).prefetch = none ∧
          (t.seq q).exc.wdcount = x.exc.wdperiod ∧ (t.seq q).run = (if x.store.valid then .word0 else .reset) ∧
          ∃ r ∈ t.recd.staging, r.code = 4 ∧ r.src = recSrc 0 (galOf q).val q.val ∧ r.payload.head? = some 4) ∧
      (x.issues = true → x.wait = .retry → exec (.retryRepeat q) s = .next ((s.modSeq q fun x => { x with
        wait := .none, cond := { x.cond with retry := false } }).waited q 64)) ∧
      (x.issues = true → x.mic.vec = some v →
        let pc := x.mic.fpcMark
        exec (.exceptionEntry q .latched) s = .next ((s.modSeq q fun x => { x with mic := { x.mic with vec := none } }).enter q
          { vec := v, ecause := x.regs.ecause, eaddr := x.regs.eaddr, framePc := if v = 8 then pc + 4 else pc, ipc := pc,
            kind := .fault }))) ∧
    (s.ready q = true → s.fetchAt q = .exn a e →
      exec (.exceptionEntry q .fetchFault) s = .next ((a.routine q wordsLoose).enter q (e.entry x.regs.pc))) ∧
    (x.running = some it → x.prefetch.isSome = true → (s.gal (galOf q)).quantum.toNat ≤ it.ticks →
      exec (.quantumExpiry q) s = .next (s.modSeq q fun x => { x with quantumUp := true }))

/-! ### Ticks, power and the ledger -/

/-- REFERENCE_TICK and GALLERY_TICK_START (R42 to R45, R50, R52, R53, R244, R250): TICKNUM counts, the allowance computed in
one tick is spent in the next and is bounded by PMAX and the host's grant; a gallery tick in progress is lengthened to the first
reference tick whose phase point is not earlier than its end was, and the numbers before it start no tick; a gallery's tick shares
its tokens among eight sequencers, which keep their debts, and a parked one runs again. -/
def Obligations.TicksStart : Prop :=
  ∀ (grant hold : BitVec 24) (g : GalId) (s : State), s.plant.tickOn = true →
    (Does (.referenceTick grant hold) s fun t =>
      t.plant.ticknum = s.plant.ticknum + 1 ∧ t.pow.ecur = s.pow.enext ∧ t.pow.wcur = s.pow.wnext ∧ t.pow.grant = grant ∧
      t.pow.hold = hold ∧ t.pow.enext ≤ grant.toNat ∧ t.pow.enext ≤ t.plant.tokens (t.plant.plantlim.toNat % 65536) ∧
      t.plant.pendCfg = none ∧ t.plant.pendGuard = none ∧ t.plant.pendPhase = [] ∧ t.plant.writes = [] ∧
      (∀ cfg, s.plant.pendCfg = some cfg → s.plant.pendGuard = none →
        let ok := tickOk (cfg.toNat % 2 ^ 21) (cfg.toNat / 2 ^ 21) s.plant.tguard.toNat s.ev.ratio.toNat
        (ok = true → t.plant.period = cfg.setWidth 21 ∧ t.plant.mhz = cfg.extractLsb' 21 11) ∧
        (ok = false → t.plant.period = s.plant.period ∧ t.plant.mhz = s.plant.mhz ∧ t.plant.tickerr = true)) ∧
      t.plant.ageD = (if s.plant.sd.isSome then 0 else s.plant.ageD + 1) ∧ t.plant.sd = none ∧ t.plant.sp = none ∧ t.plant.se = none ∧
      (s.present g = true → (s.gal g).tick ≠ none → 0 < t.plant.period.toNat →
        let j := t.plant.ticknum.toNat
        let stop := ((s.gal g).nextTick - j) * s.plant.period.toNat + (s.gal g).phase.toNat
        let starts (n : Nat) : Nat := (n - j) * t.plant.period.toNat + (t.gal g).phase.toNat
        let n := (t.gal g).nextTick
        j ≤ n ∧ stop ≤ starts n ∧ ∀ i, j ≤ i → i < n → starts i < stop) ∧
      t.mem = s.mem ∧ ∀ q, t.regs q = s.regs q) ∧
    (s.work.heldItems = [] → s.mp.closing = [] → (s.gal g).power = none → s.plant.ticknum.toNat < (s.gal g).nextTick →
      exec (.galleryTickStart g) s = .next s) ∧
    (s.logicOn g = true → (s.gal g).tick ≠ some s.plant.ticknum → (s.gal g).nextTick ≤ s.plant.ticknum.toNat →
      s.work.heldItems = [] → s.mp.closing = [] → Does (.galleryTickStart g) s fun t =>
      let v := (s.galleryValue g).1
      v ≤ s.pow.ecur ∧ v ≤ 1048575 ∧ (s.pow.holdEn = true → v ≤ s.holdRoom g) ∧ (s.pd.active = true → v = 0) ∧
      (t.gal g).tick = some s.plant.ticknum ∧ (t.gal g).cut = (s.galleryValue g).2 ∧
      ∀ q, galOf q = g → (s.gal g).power = none → (s.seq q).prefetch = none →
        (t.seq q).ticks = true ∧ (t.seq q).run = (if (s.seq q).run = .parked then .active else (s.seq q).run) ∧
        (t.seq q).bud.cycleft = s.plant.period.toNat - s.plant.tguard.toNat - (s.seq q).bud.cdebt ∧ (t.seq q).bud.cdebt = 0 ∧
        (t.seq q).bud.tokleft = v / 8 - (s.seq q).bud.tdebt ∧ (t.seq q).bud.tdebt = (s.seq q).bud.tdebt - v / 8)

/-- The rows of the tick, the plant and the ratio (R41 to R43, R54, R311, R397): pending writes wait for the boundary, a sample is
held within -64 to 127 degC, STALE follows 64 ticks without one. -/
def Obligations.TickAndPlantRows : Prop :=
  ∀ (v : Word) (g : GalId) (src : BitVec 2) (temp : BitVec 12) (ratio : BitVec 24) (s : State),
    exec .ticknumlRead s = .next { s with
      plant := { s.plant with numhLatch := s.plant.ticknum.extractLsb' 32 16 }
      eng := { s.eng with rdata := s.plant.ticknum.setWidth 32, hpErr := false } } ∧
    exec (.tickcfgWrite false v) s = .next { s with plant := { s.plant with pendCfg := some v } } ∧
    (Does (.tickcfgWrite true v) s fun t => t.plant.pendGuard = some (v.setWidth 12) ∧ t.plant.tguard = s.plant.tguard ∧
      (bit v 16 = true → t.plant.tickerr = false) ∧ (bit v 16 = false → t.plant.tickerr = s.plant.tickerr)) ∧
    (Does (.phaseWrite g v) s fun t => t.gals = s.gals ∧ (g, v.setWidth 21) ∈ t.plant.pendPhase ∧
      (∀ e ∈ t.plant.pendPhase, e.1 = g → e.2 = v.setWidth 21) ∧
      ∀ e, e.1 ≠ g → (e ∈ t.plant.pendPhase ↔ e ∈ s.plant.pendPhase)) ∧
    exec (.sclkratioRemeasure ratio) s = .next { s with ev := { s.ev with ratio := ratio } } ∧
    ((64 ≤ s.plant.ageD ∨ 64 ≤ s.plant.ageP) → exec .plantStale s = .next { s with pow := { s.pow with stale := true } }) ∧
    Does (.temperatureSample src temp) s fun t =>
      let x : Int := temp.toInt * 4096
      let y : Int := if x < -64 * 65536 then -64 * 65536 else if 127 * 65536 < x then 127 * 65536 else x
      (src = 0 → t.plant = { s.plant with sd := some y, ageD := 0 } ∧ (t.pow.stale = true ↔ s.pow.stale = true ∧ 64 ≤ s.plant.ageP)) ∧
      (src = 1 → t.plant = { s.plant with sp := some y, ageP := 0 } ∧ (t.pow.stale = true ↔ s.pow.stale = true ∧ 64 ≤ s.plant.ageD)) ∧
      (src = 2 → t.plant = { s.plant with se := some y } ∧ t.pow = s.pow)

/-- The ledger (R58 to R61): an audit of a clean snapshot only notes its tick, one mismatch is latched, raises HIRQ.LEDGER and
fences a gallery that serves, forces a conserving cell or leads to RECOVERY, and the fenced gallery's terms balance again; four
galleries are a self-fault; a recount arms the audits; a maintenance write sets the term. -/
def Obligations.LedgerAuditsAndRearms : Prop :=
  ∀ (k sc : Nat) (d v : Word) (s : State),
    let l := s.ledger
    (l.haveSnap = true → l.armed = true → l.maint = false → l.recount = false → l.storeUe = false →
      (l.snap = [] → Does .ledgerAudit s fun t => t.ledger.tick = l.snapTick ∧ t.ledger.haveSnap = false ∧
        t.ledger.mismatch = l.mismatch ∧ t.gals = s.gals ∧ t.seqs = s.seqs ∧ t.eng = s.eng) ∧
      (l.snap = [(k, sc, d)] → k ∈ [1, 2, 3, 4, 5, 8] → sc < 16 → Does .ledgerAudit s fun t =>
        t.ledger.mismatch = true ∧ t.ledger.qty = BitVec.ofNat 4 k ∧ t.ledger.scope = BitVec.ofNat 8 sc ∧
        t.ledger.tick = l.snapTick ∧ bit t.eng.hirq hirqLedger = true ∧
        (∃ r ∈ t.recd.staging, r.code = 1) ∧
        ∃ h : GalId, h.val = sc ∧ ((s.gal h).gstate = .serving → (t.gal h).gstate = .fenced) ∧
          (s.present h = true → ∀ j ∈ [1, 2, 3, 5], t.ledSum j sc = 0)) ∧
      (l.snap = [(6, 0xFF, d)] → Does .ledgerAudit s fun t => t.ledger.mismatch = true ∧ t.ledger.qty = 6 ∧ t.ledger.scope = 0xFF ∧
        (s.operating = true → t.eng.state = .recovery) ∧ bit t.eng.hirq hirqLedger = true ∧ t.gals = s.gals) ∧
      (∀ j : Fin 64, l.snap = [(9, j.val, d)] → Does .ledgerAudit s fun t => t.ledger.mismatch = true ∧ t.ledger.qty = 9 ∧
        t.ledger.scope.toNat = j.val ∧ (t.ev.cells[j]).forced = true ∧ (t.ev.cells[j]).out = false ∧
        bit t.eng.hirq hirqLedger = true ∧ t.gals = s.gals) ∧
      (4 ≤ (badGalleries l.snap).length → Does .ledgerAudit s fun t => (s.operating = true → t.eng.state = .recovery) ∧ t.ledger.recount = true ∧ t.ledger.armed = false ∧ t.gals = s.gals)) ∧
    (l.recount = true → s.operating = true → Does .ledgerRecount s fun t =>
      t.ledger.recount = false ∧ (t.ledger.armed = !l.maint) ∧ t.mem = s.mem ∧ t.seqs = s.seqs ∧
      (∀ j : Fin 64, t.ledSum 9 j.val = 0) ∧
      ∀ g : GalId, s.present g = true → ∀ k ∈ [1, 2, 3, 5], t.ledSum k g.val = 0) ∧
    ((s.eng.state = .start ∨ s.eng.state = .test ∨ s.eng.state = .recovery) → Does (.ledgvalWrite v) s fun t =>
      t.ledger.maint = true ∧ t.ledger.armed = false ∧
      ∀ g : GalId, s.present g = true → l.selected = (1, g.val, 0) → t.ledgval = v) ∧
    (s.eng.state = .service → exec (.ledgvalWrite v) s = .next { s with ledger := { s.ledger with mainterr := true } }) ∧
    (Does .rearm s fun t => t.ledger.maint = false ∧ t.ledger.recount = true ∧ t.ledger.armed = false ∧
      t = { s with ledger := t.ledger })

/-! ### Galleries, banks, work -/

/-- The gallery commands (R328, R330, R348 to R350) and what the domains' acknowledgements bring (R346, R348): GAL_SQUEEZE
starts a squeeze that GAL_RELEASE ends, GAL_FENCE stops every sequencer of the gallery, GAL_POWER lowers and raises its two
domains in order, in TEST with a BIST of its memories (log 87), and a domain that does not answer leaves the gallery OFF. -/
def Obligations.GalleriesChangeState : Prop :=
  ∀ (m : MbId) (mo : Option MbId) (g : GalId) (s : State), s.present g = true →
    let x := s.gal g
    let names (code : Nat) : Prop := s.taken m code = true ∧ s.eng.bistDead = false ∧ s.operating = true ∧ s.arg m 0 1 = g.val
    let power (mode : Nat) : Prop := names 0x0304 ∧ s.arg m 1 1 = mode ∧ s.arg m 2 2 = 0 ∧ s.galHeld g = false
    (names 0x0301 → s.arg m 1 1 = 0 → s.arg m 2 2 ≠ 0 → s.galHeld g = false → x.gstate = .serving → Does (.galSqueeze m) s fun t =>
      (t.gal g).gstate = .squeezing ∧ (t.gal g).deadleft.toNat = s.arg m 2 2 ∧ m ∉ t.mb.queue ∧
      bit t.mb.busy m.val = bit s.mb.busy m.val ∧
      ∀ q, galOf q = g → (t.seq q).prefetch = none ∧ (t.seq q).running = (s.seq q).running ∧ bit (t.seq q).exc.irqpend 5 = true) ∧
    (names 0x0302 → s.arg m 1 3 = 0 → s.galHeld g = false → s.mayRelease g = true → Does (.galRelease m) s fun t =>
      ∃ u : State, t = u.reply m mbOK ∧ (u.gal g).gstate = .serving ∧ (u.gal g).rtbase = 0 ∧
        ∀ q, galOf q = g → (s.seq q).store.valid = true → ((s.seq q).run = .reset ∨ (s.seq q).run = .stopped) → (u.seq q).run = .word0) ∧
    (names 0x0303 → s.arg m 1 3 = 0 → x.gstate ≠ .fenced → x.gstate ≠ .off → x.gstate ≠ .retained → Does (.galFence m) s fun t =>
      ∃ u : State, t = u.reply m mbOK 0 (leBytes 2 ((seqsOf g).countP fun q => (s.seq q).running.isSome) ++ [0, 0]) ∧
        (u.gal g).gstate = .fenced ∧ (∀ y ∈ (u.gal g).md.tags, y.orphan = true ∧ y.sump = true) ∧
        ∀ q, galOf q = g → u.regs q = {} ∧ (u.seq q).running = none ∧ (u.seq q).prefetch = none ∧
          (u.seq q).run = (if (s.seq q).cs.mf then .mfault else .reset)) ∧
    (x.gstate = .squeezed ∨ x.gstate = .fenced →
      (power 0 → s.drained g = false → Does (.galPowerOff m) s fun t =>
        (t.gal g).gstate = x.gstate ∧ (t.gal g).power = some (.drain false, some m)) ∧
      (power 0 → s.drained g = true → bit s.aon.emu g.val = false → Does (.galPowerOff m) s fun t =>
        (t.gal g).gstate = .off ∧ t.logicOn g = false ∧ bit t.pd.req (2 * g.val) = false ∧
        (t.gal g).power = some (.lowerLogic false, some m)) ∧
      (power 1 → s.drained g = true → x.awake ≠ 0 → Does (.galPowerRetain m) s fun t =>
        (t.gal g).ret = 0xFFFF ∧ (∀ b : Fin 16, (t.gal g).owner[b] = 8) ∧ (t.gal g).power = some (.retention, some m))) ∧
    (x.gstate = .off ∨ x.gstate = .retained → power 2 → s.pdOn (2 * g.val + 1) = false → Does (.galPowerOn m) s fun t =>
      bit t.pd.req (2 * g.val + 1) = true ∧ (t.gal g).power = some (.raiseScratch, some m) ∧ (t.gal g).gstate = x.gstate) ∧
    (s.eng.state ≠ .calib → s.pd.closed = false → s.pd.back = none → ∀ d : Fin 40,
      (d.val = 2 * g.val + 1 → x.power = some (.raiseScratch, mo) → bit s.pd.req d.val = true → s.pdOn d.val = false →
        s.pdOn (2 * g.val) = false →
        Does (.pdAck d true) s fun t =>
          if s.eng.state = .test ∧ x.gstate ≠ .retained ∧ Config.bistFails s.freeCtr = true then
            t.pdOn d.val = false ∧ t.pdOn (2 * g.val) = false ∧ (t.gal g).gstate = .off ∧ (t.gal g).power = none ∧
            ∃ r ∈ t.recd.staging, r.code = 6
          else t.pdOn d.val = true ∧ bit t.pd.req (2 * g.val) = true ∧ (t.gal g).power = some (.raiseLogic, mo)) ∧
      (d.val = 2 * g.val → x.power = some (.raiseLogic, mo) → bit s.pd.req d.val = true → s.pdOn d.val = false →
        Does (.pdAck d true) s fun t => t.logicOn g = true ∧ (t.gal g).gstate = .squeezed ∧ (t.gal g).power = none ∧
          ∀ q, galOf q = g → (t.seq q).cs.csver = 0 ∧ (t.seq q).run = .reset) ∧
      (bit s.pd.req d.val = false →
        (d.val = 2 * g.val → x.power = some (.lowerLogic false, mo) → Does (.pdAck d false) s fun t =>
          bit t.pd.req (2 * g.val + 1) = false ∧ t.pdOn (2 * g.val + 1) = false ∧ (t.gal g).power = some (.lowerScratch, mo)) ∧
        ((d.val = 2 * g.val ∧ x.power = some (.lowerLogic true, mo) ∨ d.val = 2 * g.val + 1 ∧ x.power = some (.lowerScratch, mo)) →
          Does (.pdAck d false) s fun t => (t.gal g).power = none ∧ t.pd = s.pd ∧
            ∀ k, mo = some k → bit t.mb.busy k.val = false ∧ bit t.mb.done k.val = true)) ∧
      (s.awaits g d.val = true → Does (.pdAckTimeout d) s fun t =>
        t.pd.pderr = true ∧ t.pd.errpd = BitVec.ofNat 6 d.val ∧ (t.gal g).gstate = .off ∧ (t.gal g).power = none ∧
        t.pdOn (2 * g.val) = false ∧ t.pdOn (2 * g.val + 1) = false))

/-- The deadline of a squeeze and re-homing (R269, R349): a running context is asked to unbind, one of a halted sequencer is saved
at once; a context without room anywhere stays NOHOME, one that waits NOHOME moves to a serving gallery. -/
def Obligations.SqueezesMoveContexts : Prop :=
  ∀ (g h : GalId) (c : Half) (s : State), MemOk s →
    (∀ x, x = s.gal g → x.gstate = .squeezing → x.deadleft = 0 → s.pd.active = false → Does (.squeezeDeadline g) s fun t =>
      ∀ q, galOf q = g → (s.seq q).running.isSome = true → (s.seq q).unbind = none →
        ((s.seq q).dbg.halted = false → (t.seq q).unbind = some .squeeze ∧ (t.seq q).ticks = true ∧ t.regs q = s.regs q) ∧
        ((s.seq q).dbg.halted = true → (t.seq q).running = none)) ∧
    (s.mayMove c = true → Does (.rehoming c none .ok) s fun t => t.ctxFlag c 2 = true) ∧
    (s.mayMove c = true → s.ctxFlag c 2 = true → s.serving h = true → s.work.heldItems = [] →
      privateSegs (s.mem.readBytes (s.ctxSave c) 256) (s.ctxHome c) = [] → Does (.rehoming c (some h) .ok) s fun t =>
        t.ctxHome c = h ∧ t.ctxFlag c 2 = false ∧ t.ctxState c = ctxOPEN ∧ t.seqs = s.seqs)

/-- The banks of a scratch (R253, R258 to R262, R394): a corrected codeword is written back, a field of BANKOWN and BANKRET
changes only for its owner or the MP, a bank with RET set enters retention and wakes, lost power spares the banks that are
awake, and a runtime block that passes its checks starts the runtime. -/
def Obligations.ScratchBanksServed : Prop :=
  ∀ (g : GalId) (b : Fin 16) (high : Bool) (v : Word) (a : Agent) (q : SeqId) (s : State),
    let x := s.gal g
    let allowed (own : BitVec 4) : Prop := a = .mp ∨ ∃ k : Fin 8, a = .seq k ∧ own.toNat = k.val
    (∀ c, s.ecc.wb.find? (inBank g b) = some c → exec (.scratchEccWriteback g b) s = .next { s with
      ecc := { s.ecc with wb := s.ecc.wb.filter (· ≠ c), ce := s.ecc.ce.filter (· ≠ c) } }) ∧
    (s.present g = true → bit x.ret b.val = true → bit x.awake b.val = true → s.bankBusy g b = false → x.power = none →
      exec (.retentionEntry g b) s = .next (s.modGal g fun x => { x with
        awake := putBit x.awake b.val false, waking := putBit x.waking b.val false })) ∧
    (bit x.waking b.val = true → exec (.bankWake g b) s = .next (s.modGal g fun x => { x with
      awake := putBit x.awake b.val true, waking := putBit x.waking b.val false })) ∧
    (MemOk s → s.present g = true → s.pdOn (2 * g.val + 1) = true → Does (.vddRetLoss g) s fun t =>
      t.seqs = s.seqs ∧ t.gals = s.gals ∧
      ∀ p, (∀ k : Fin 16, bit x.awake k.val = false → p < scratchAddr g (k.val * 0x10000) ∨
        scratchAddr g (k.val * 0x10000) + 0x10000 ≤ p) → t.mem.get p = s.mem.get p) ∧
    (s.logicOn g = true →
      (Does (.bankownWrite g high v a) s fun t => OnlyGal g s t ∧
        t.gal g = { x with owner := (t.gal g).owner, handerr := (t.gal g).handerr } ∧
        ∀ i : Fin 16,
          let old := x.owner[i]
          let new := v.extractLsb' (4 * (i.val % 8)) 4
          ((if high then 8 ≤ i.val else i.val < 8) → new.toNat ≤ 8 → allowed old → (t.gal g).owner[i] = new) ∧
          ((if high then 8 ≤ i.val else i.val < 8) → new ≠ old → (8 < new.toNat ∨ ¬allowed old) →
            (t.gal g).owner[i] = old ∧ (t.gal g).handerr = true) ∧
          ((if high then i.val < 8 else 8 ≤ i.val) → (t.gal g).owner[i] = old)) ∧
      (Does (.bankretWrite g v a) s fun t => OnlyGal g s t ∧
        t.gal g = { x with ret := (t.gal g).ret, waking := (t.gal g).waking, handerr := (t.gal g).handerr } ∧
        ∀ i : Fin 16,
          (allowed x.owner[i] → bit (t.gal g).ret i.val = bit v i.val) ∧
          (¬allowed x.owner[i] → bit (t.gal g).ret i.val = bit x.ret i.val) ∧
          (bit v i.val ≠ bit x.ret i.val → ¬allowed x.owner[i] → (t.gal g).handerr = true) ∧
          (allowed x.owner[i] → bit x.ret i.val = true → bit v i.val = false → bit x.awake i.val = false →
            bit (t.gal g).waking i.val = true)) ∧
      (Does (.rtbaseWrite g v) s fun t => (t.gal g).rtbase = v &&& 0x000FFFC0 ∧ t.mem = s.mem ∧
        ∀ p, (t.seq p).run = (if galOf p = g ∧ (s.seq p).run = .rtWait then .word0 else (s.seq p).run) ∧ t.regs p = s.regs p)) ∧
    (∀ u bs, s.alive q = true → (s.seq q).run = .word0 → (s.seq q).store.valid = true → (s.seq q).dbg.halted = false →
      (s.seq q).bud.stuck = false → (s.seq q).prefetch = none →
      let off := (s.gal (galOf q)).rtbase.toNat + (idxOf q).val * 0x40
      off + 64 ≤ 0x100000 → s.memRead q (scratchAddr (galOf q) off) 64 = .ok u bs →
      (rtBlockOk bs = true → Does (.runtimeBlockLoad q) s fun t => (t.seq q).run = .active ∧ t.mem = u.mem ∧
        t.regs q = { s.regs q with
          s0r := BitVec.ofNat 128 (ofLeBytes (bs.take 16))
          s7r := BitVec.ofNat 128 (ofLeBytes ((bs.drop 16).take 16))
          spr := BitVec.ofNat 16 (ofLeBytes ((bs.drop 32).take 2))
          vbr := BitVec.ofNat 16 (ofLeBytes ((bs.drop 34).take 2)) }) ∧
      (rtBlockOk bs = false → Does (.runtimeBlockLoad q) s fun t => (t.seq q).run = .rtWait ∧ t.regs q = s.regs q ∧
        bit (t.gal (galOf q)).rterr (idxOf q).val = true))

/-- The work and completion ports (R279 to R282, R336): a reserved or impossible descriptor and one for a gallery that does not
serve end at once in a record, an accepted one fills the slot that the rotor picks, a recall returns what has not started, and
records leave oldest first. -/
def Obligations.WorkEntersAndLeaves : Prop :=
  ∀ (d : BitVec 256) (g : GalId) (m : MbId) (s : State),
    let h := wdGal d
    let ended (status cause : Byte) : Prop := Does (.workDescriptor d) s fun t => ∃ c : Completion,
      t.work.fifo = s.work.fifo ++ [c] ∧ c.ctx = wdCtx d ∧ c.status = status ∧ c.cause = cause ∧ c.result = 0 ∧ c.ticks = 0 ∧
      c.seq = 0xFF ∧ (s.ecc.ce = [] → s.ecc.ue = [] → t.mem = s.mem ∧ t.seqs = s.seqs)
    (s.wkReady h = true → s.work.heldItems = [] →
      ((wdReserved d = true ∨ wdCtx d = 0xFFFF ∨ s.present h = false) → ended stFAILED 0x06) ∧
      (wdReserved d = false → wdCtx d ≠ 0xFFFF → s.present h = true → s.serving h = false → ended stRETURNED 0x10) ∧
      (s.serving h = true → wdCtx d ≠ 0xFFFF → MemOk s →
        let s1 := (s.led h 21 1).ctxTouch (wdCtx d)
        s1.wdCheck d = none → ∀ i, s1.pickSlot h = some i → ((s1.seq (seqId h i)).run ≠ .active ∨ (s1.seq (seqId h i)).running.isSome) →
        wdReserved d = false ∧ s1.ctxHome (wdCtx d) = h ∧ s1.ctxState (wdCtx d) ∉ [ctxFREE, ctxBROKEN, ctxHOMING, ctxBOUND, ctxPARKED] ∧
        Does (.workDescriptor d) s fun t => (t.seq (seqId h i)).prefetch = some (wdItem d) ∧
          bit (t.seq (seqId h i)).exc.irqpend 3 = true ∧ (t.gal h).slotRotor.val = (i.val + 1) % 8 ∧ t.ctxState (wdCtx d) = ctxPARKED ∧
          t.work.fifo = s.work.fifo)) ∧
    (Does (.workRecall g) s fun t => ∀ q it, galOf q = g → (s.seq q).prefetch = some it →
      (it.started = false → (t.seq q).prefetch = none ∧ (t.seq q).cond.slotret = true ∧ bit (t.seq q).exc.irqpend 4 = true) ∧
      (it.started = true → t.seq q = s.seq q)) ∧
    (∀ c rest, s.work.fifo = c :: rest →
      exec .completionRecord s = .next { s with work := { s.work with fifo := rest, last := some c } }) ∧
    (s.taken m 0x0406 = true → s.eng.bistDead = false → s.arg m 0 2 ≠ 0 → s.arg m 2 2 < 2 → Does (.workCfg m) s fun t =>
      ∃ u : State, t = u.reply m mbOK 0 (leBytes 2 s.mp.quantum.toNat ++ leBytes 2 (if s.mp.early then 1 else 0)) ∧
        u = { s with mp := { s.mp with quantum := BitVec.ofNat 16 (s.arg m 0 2), early := decide (s.arg m 2 2 = 1) } })

/-! ### The event router and the timers -/

/-- The event router (R292 to R304): an edge that its mode counts waits in its input's counter or is lost behind 15, and each edge the
stage takes (how many is free, log 49) is one count in flight, or is lost with EVSTAT.CHOVR; a count reaches the consumer that CHSUB
names; a pulse is high, then low, for PW fc; an entry that names an absent or taken consumer is refused; a cell follows its table,
and one that conserves keeps every count. -/
def Obligations.RouterMovesCounts : Prop :=
  ∀ (i j : Fin 64) (level : Bool) (ch : Byte) (n : BitVec 2) (v : Word) (s : State),
    let x := s.ev.ins[i]
    let o := s.ev.outs[i]
    let c := s.ev.cells[j]
    let onChannel (u : State) (b : Byte) : Nat := ((u.ev.flight.filter fun e => e.1 = b).map fun e => e.2.toNat).sum
    (x.lvl = level → exec (.eventInputEdge i level) s = .next s) ∧
    (x.lvl ≠ level → Does (.eventInputEdge i level) s fun t =>
      let counted := x.mode = 3 ∨ x.mode = 1 ∧ level = true ∨ x.mode = 2 ∧ level = false
      (t.ev.ins[i]).lvl = level ∧ (∀ k, k ≠ i → t.ev.ins[k] = s.ev.ins[k]) ∧
      (¬counted → t.ev.flight = s.ev.flight) ∧
      (counted → 15 ≤ x.edges → t.ev.flight = s.ev.flight ∧ (t.ev.ins[i]).edges = x.edges ∧ (t.ev.ins[i]).ovr = true ∧ t.ev.pinerr = true ∧
        (x.ovr = false → ∃ r ∈ t.recd.staging, r.code = 0x30 ∧ r.payload = [BitVec.ofNat 8 i.val])) ∧
      (counted → x.edges < 15 → ∃ k, (t.ev.ins[i]).edges + k = x.edges + 1 ∧
        (∀ b, (b ≠ x.ch ∨ chType (s.chsub x.ch) = 0) → onChannel t b = onChannel s b) ∧
        (chType (s.chsub x.ch) ≠ 0 → onChannel t x.ch = onChannel s x.ch + k ∨
          onChannel t x.ch < onChannel s x.ch + k ∧ t.ev.anyovr = true))) ∧
    ((x.mode = 1 ∧ x.lvl = true ∨ x.mode = 2 ∧ x.lvl = false) → x.stuckt ≠ 0 → x.stuckt.toNat ≤ x.active → x.stuck = false →
      Does (.eventInputStuck i) s fun t => (t.ev.ins[i]).stuck = true ∧ t.ev.pinerr = true ∧
        ∃ r ∈ t.recd.staging, r.code = 0x31 ∧ r.payload = [BitVec.ofNat 8 i.val]) ∧
    (s.ev.flight.find? (fun e => e.1 == ch) = some (ch, n) → Does (.countDelivery ch) s fun t =>
      let sub := s.chsub ch
      t.ev.flight = s.ev.flight.erase (ch, n) ∧
      (∀ q : SeqId, chType sub = 1 → chUnit sub = q.val → s.logicOn (galOf q) = true →
        let e := (s.seq q).slots[chSlot sub]
        ((t.seq q).slots[chSlot sub]).pend.toNat = min 15 (e.pend.toNat + n.toNat) ∧
        (((t.seq q).slots[chSlot sub]).ovr = true ↔ e.ovr = true ∨ 15 < e.pend.toNat + n.toNat)) ∧
      (∀ k : Fin 32, chType sub = 2 → chUnit sub = k.val →
        (t.ev.mpSlots[k]).pend.toNat = min 15 ((s.ev.mpSlots[k]).pend.toNat + n.toNat)) ∧
      (∀ k : Fin 64, chType sub = 3 → chUnit sub = k.val → (s.ev.outs[k]).mode = false →
        (t.ev.outs[k]).pend.toNat = min 15 ((s.ev.outs[k]).pend.toNat + n.toNat)) ∧
      (∀ (g : GalId) (k : Fin 8), chType sub = 4 → chUnit sub = g.val * 8 + k.val → s.logicOn g = true →
        (t.timer g k).cap = (s.timer g k).count ∧ (t.timer g k).capf = true)) ∧
    ((∀ e ∈ s.ev.flight, e.1 ≠ x.ch) → x.edges ≠ 0 → (∀ k, k < i → (s.ev.ins[k]).edges = 0 ∨ (s.ev.ins[k]).ch ≠ x.ch) →
      Does (.countDelivery x.ch) s fun t => (t.ev.ins[i]).edges = x.edges - 1 ∧ t.ev.flight = s.ev.flight) ∧
    (o.mode = false → o.pend ≠ 0 → Does (.eventOutputPulse i) s fun t =>
      t.ev.outs[i] = { o with pend := o.pend - 1, level := false, phases := [(true, o.pw), (false, o.pw)] } ∧ ∀ k, k ≠ i → t.ev.outs[k] = s.ev.outs[k]) ∧
    (s.chsubRefused ch v = true → exec (.chsubWrite ch v) s = .next { s with ev := { s.ev with suberr := true } }) ∧
    (s.chsubRefused ch v = false → Does (.chsubWrite ch v) s fun t => t.chsub ch = v &&& 0xF0FF0007 ∧
      (∀ e ∈ t.ev.flight, e.1 ≠ ch) ∧ (∀ k, k ≠ ch → t.chsub k = s.chsub k) ∧
      ∀ q : SeqId, chType v = 1 → chUnit v = q.val → (t.seq q).slots[chSlot v] = { v := true, ovr := false, pend := 0, ch := ch }) ∧
    ((c.cons = true ∧ bit v 7 = false ∧ c.held ≠ 0 → exec (.lutctlWrite j v) s = .next { s with ev := { s.ev with luterr := true } }) ∧
     ((c.cons = false ∨ bit v 7 = true ∨ c.held = 0) → Does (.lutctlWrite j v) s fun t => (t.ev.cells[j]).ctl = v ∧
       (c.cons = false → bit v 7 = true → (t.ev.cells[j]).held = 0) ∧ (c.cons = bit v 7 → (t.ev.cells[j]).held = c.held) ∧
       ∀ k, k ≠ j → t.ev.cells[k] = s.ev.cells[k])) ∧
    (c.cons = false → c.forced = false → c.ctl.extractLsb' 0 5 = 0 → Does (.lutCellEvaluation j) s fun t =>
      let f := bit c.ctl
        (16 + (s.lutInput j 3).toNat * 8 + (s.lutInput j 2).toNat * 4 + (s.lutInput j 1).toNat * 2 + (s.lutInput j 0).toNat)
      (t.ev.cells[j]).out = f ∧ ∀ k : Fin 64, (t.ev.outs[k]).level =
        if (s.ev.outs[k]).mode = true ∧ (s.ev.outs[k]).lut.toNat = j.val ∧ c.out ≠ f then f else (s.ev.outs[k]).level) ∧
    (∀ k : Fin 4,
      let sel := (c.sel.extractLsb' (8 * k.val) 8).toNat
      (∀ h : sel < 64, s.lutInput j k = (s.ev.ins[sel]).lvl) ∧
      (∀ h : sel - 64 < 64, 64 ≤ sel → s.lutInput j k = (s.ev.cells[sel - 64]).out ∨ s.lutInput j k = (s.ev.cells[sel - 64]).before) ∧
      (sel = 128 → s.lutInput j k = decide (c.arrive[k] ≠ 0)) ∧ (128 < sel → s.lutInput j k = false)) ∧
    (c.cons = true → Does (.lutCellEvaluation j) s fun t =>
      let d := t.ev.cells[j]
      let a := (c.arrive[(0 : Fin 4)]).toNat
      d.held ≤ 65535 ∧ d.cin = c.cin + BitVec.ofNat 32 a ∧ (c.forced = true → d.out = false ∧ d.cout = c.cout) ∧
      (c.held + a ≤ 65535 → d.cin - d.cout - BitVec.ofNat 32 d.held = c.cin - c.cout - BitVec.ofNat 32 c.held))

/-- The timers (R305 to R309): COUNT counts while EN is 1, a match sets MATCH, under AUTO moves CMP on and under PUB publishes, a
write of COUNT is refused while counting, a new CMP is judged against COUNT, one equal to it matching with the write, and a read of
CAP clears CAPF. -/
def Obligations.TimersCountAndMatch : Prop :=
  ∀ (g : GalId) (t : Fin 8) (v : Word) (high : Bool) (s : State),
    let x := s.timer g t
    let told (u : State) : Prop :=
      (x.pub = false ∨ chType (s.chsub x.pubch) = 0 → u.ev = s.ev) ∧
      (x.pub = true → chType (s.chsub x.pubch) ≠ 0 →
        ((∀ e ∈ s.ev.flight, e.1 ≠ x.pubch) → u.ev = { s.ev with flight := s.ev.flight ++ [(x.pubch, 1#2)] }) ∧
        ((∃ e ∈ s.ev.flight, e.1 = x.pubch) → u.ev = s.ev.carry (Config.sameFc s.freeCtr) x.pubch 1)) ∧
      (x.ie = true → (s.gal g).tmrIrq x.seq = false → bit (u.seq (seqId g x.seq)).exc.irqpend 0 = true)
    (x.hit = true → Does (.timerMatch g t) s fun u => told u ∧ u.timer g t = { x with
      matched := true, hit := false, cmp := if x.auto then x.cmp + x.intv.setWidth 48 else x.cmp }) ∧
    (s.present g = true → (s.variant.aotmr = true ∨ s.logicOn g = true) → x.en = true → Does (.timerIncrement g t) s fun u =>
      (u.timer g t).count = x.count + 1 ∧
      (x.hit = false → u.timer g t = { x with count := x.count + 1, hit := x.count + 1 == x.cmp, residue := 0 })) ∧
    (s.logicOn g = true →
      (Does (.timerCtlWrite g t v) s fun u =>
        let y := u.timer g t
        let arms := bit v 31 = true ∧ bit v 30 = true ∧ x.en = false
        (y.en = true ↔ bit v 31 = true ∧ ¬arms) ∧ (y.armed = true ↔ arms) ∧ y.sync = bit v 30 ∧ y.ie = bit v 28 ∧ y.pub = bit v 27 ∧
        y.seq.val = v.toNat / 2 ^ 24 % 8 ∧ y.pubch = v.extractLsb' 16 8 ∧ y.pre = v.extractLsb' 0 8 ∧ y.count = x.count ∧
        (s.eng.state = .service → y.auto = false ∧ (bit v 29 = true → y.tmrerr = true)) ∧ (s.eng.state = .start → y.auto = bit v 29)) ∧
      (Does (.timerCountWrite g t high v) s fun u => OnlyGal g s u ∧
        (high = true → u.timer g t = { x with cntHeld := some (v.setWidth 16) }) ∧
        (high = false → x.en = true → u.timer g t = { x with cntHeld := none, tmrerr := true }) ∧
        (high = false → x.en = false → u.timer g t = { x with
          cntHeld := none, count := x.cntHeld.getD (x.count.extractLsb' 32 16) ++ v })) ∧
      (x.hit = false → Does (.timerCmpWrite g t high v) s fun u =>
        let c := x.cmpHeld.getD (x.cmp.extractLsb' 32 16) ++ v
        (high = true → OnlyGal g s u ∧ u.timer g t = { x with cmpHeld := some (v.setWidth 16) }) ∧
        (high = false → c ≠ x.count → OnlyGal g s u ∧ u.timer g t = { x with
          cmp := c, cmpHeld := none, missed := x.missed || decide (2 ^ 47 ≤ (c - x.count).toNat) }) ∧
        (high = false → c = x.count → told u ∧ u.timer g t = { x with
          cmpHeld := none, matched := true, cmp := if x.auto then c + x.intv.setWidth 48 else c })) ∧
      (Does (.capRead g t) s fun u => u.eng.rdata = x.cap.setWidth 32 ∧ u.timer g t = { x with
        capf := false, capLatch := x.cap.extractLsb' 32 16 }))

/-! ### The host port, microwords and control stores -/

/-- Doorbells, replies and the host's accesses (R31, R38, R312 to R320, R380): a message to a free mailbox joins the queue, and is
answered by its first failed check when it comes to the front; one to a busy mailbox sets MBERR; a reply fills its outbound half
alone; an access that the map does not answer sets HOSTERR. -/
def Obligations.MailboxesAndAccesses : Prop :=
  ∀ (m : MbId) (a : BitVec 21) (v : Word) (ag : Agent) (q : SeqId) (s : State),
    let rung : Word := 1#32 <<< (m.val % 32)
    let ring := Instr.doorbell (decide (32 ≤ m.val)) rung
    (bit s.mb.busy m.val = true → exec ring s = .next { s with mb := { s.mb with dbbusy := true, errBox := BitVec.ofNat 6 m.val } }) ∧
    (bit s.mb.busy m.val = false →
      ((s.eng.ready = false ∨ s.eng.mpbusy = true) → exec ring s = .next (s.reply m mbBUSY)) ∧
      (s.eng.ready = true → s.eng.mpbusy = false → Does ring s fun t =>
        (s.mb.queue = [] → ∀ st, s.msgFault m = some st → ∃ u : State, t = u.post m st 0 [] ∧ u.mb.bytes = s.mb.bytes) ∧
        (s.mb.queue = [] ∧ s.msgFault m = none ∨ (∃ h, s.mb.queue.head? = some h ∧ s.msgFault h = none) →
          t.mb.queue = s.mb.queue ++ [m] ∧ bit t.mb.busy m.val = true ∧ bit t.mb.done m.val = false ∧
          t.mb.bytes = s.mb.bytes))) ∧
    (∀ st detail p h st', (s.mb.queue.filter (· ≠ m)).head? = some h → s.msgFault h = some st' → MemOk s →
      h ∉ (s.reply m st detail p).mb.queue ∧ (s.reply m st detail p).mb.bytes.get (h.val * 256 + 0x86) = st') ∧
    (∀ st detail p, MemOk s → p.length ≤ 112 → (∀ h, (s.mb.queue.filter (· ≠ m)).head? = some h → s.msgFault h = none) →
      let t := s.reply m st detail p
      let b := m.val * 256
      bit t.mb.busy m.val = false ∧ bit t.mb.done m.val = true ∧ m ∉ t.mb.queue ∧
      (∀ i, i < 4 → t.mb.bytes.get (b + 0x80 + i) = s.mb.bytes.get (b + i)) ∧ t.mb.bytes.get (b + 0x86) = st ∧
      (∀ i (h : i < p.length), t.mb.bytes.get (b + 0x90 + i) = p[i]) ∧
      (∀ k, k < b + 0x80 ∨ b + 0x100 ≤ k → t.mb.bytes.get k = s.mb.bytes.get k) ∧
      t = { s with mb := t.mb, eng := { s.eng with hirq := t.eng.hirq } }) ∧
    (a.toNat % 4 = 0 → s.spot s.eng.win a.toNat = .unmapped → a.toNat ≠ 0x8010 →
      (Does (.registerRead a) s fun t => t.eng.rdata = 0 ∧ t.eng.heUnmap = true ∧ t.eng.heAddr = a ∧ bit t.eng.hirq hirqHosterr = true) ∧
      (Does (.registerWrite a v) s fun t => t.eng.heUnmap = true ∧ t.eng.heAddr = a ∧ t = { s with eng := t.eng })) ∧
    (∀ r, a.toNat % 4 = 0 → s.spot s.eng.win a.toNat = .reg r →
      exec (.registerRead a) s = .next ((s.answer (s.regRead r)).readFx r) ∧
      exec (.registerWrite a v) s = .next (({ s with eng := { s.eng with hpErr := false } } : State).regWrite r v .host)) ∧
    (∀ off, a.toNat % 4 = 0 → s.spot s.eng.win a.toNat = .mailbox m off → off < 0x80 → bit s.mb.busy m.val = false →
      MemOk s → Does (.registerWrite a v) s fun t => (∀ i, i < 4 → t.mb.bytes.get (m.val * 256 + off + i) = v.extractLsb' (8 * i) 8) ∧
        ∀ k, (k < m.val * 256 + off ∨ m.val * 256 + off + 4 ≤ k) → t.mb.bytes.get k = s.mb.bytes.get k) ∧
    (a.toNat % 4 ≠ 0 → Does (.registerRead a) s fun t => t.eng.hpErr = true) ∧
    (s.alive q = true →
      (exec (.irqsetWrite q v) s = .next (s.modSeq q fun x => { x with
        exc := { x.exc with irqpend := x.exc.irqpend ||| (v.setWidth 16 &&& 0xF800) } })) ∧
      ((s.seq q).cs.mf = true → Does (.mcfaultRestart q) s fun t => (t.seq q).cs.mf = false ∧ t.regs q = {} ∧
        (t.seq q).run = (if (s.seq q).store.valid then .word0 else .reset) ∧ (t.seq q).ledge = (s.seq q).ledge) ∧
      ((s.seq q).dbg.halted = false → (s.seq q).dhalt = false → Does (.dbgctlHalt q) s fun t => OnlySeq q s t ∧
        (t.seq q).dhalt = true ∧ (t.seq q).dbg.why = 1 ∧ (t.seq q).dbg.defer = (s.seq q).lock.isSome ∧ t.regs q = s.regs q) ∧
      ((s.seq q).dbg.halted = true → (s.seq q).prefetch = none → Does (.dbgctlResume q) s fun t =>
        (t.seq q).dbg.halted = false ∧ t.regs q = s.regs q ∧ (t.seq q).exc.wdcount = (s.seq q).exc.wdperiod) ∧
      ((s.seq q).dbg.halted = false → (s.seq q).dhalt = true → (s.seq q).dbg.defer = true → Does (.dbgctlResume q) s fun t =>
        (t.seq q).dhalt = false ∧ OnlySeq q s t)) ∧
    (exec (.ewdkick 0x5A5A .mp) s = .next { s with aon := { s.aon with ewdCount := s.aon.ewdPeriod } }) ∧
    ((ag ≠ .mp ∨ v ≠ 0x5A5A) → exec (.ewdkick v ag) s = .next s) ∧
    (Does .engineWatchdogExpiry s fun t => t.eng.mpbusy = true ∧ t.mb.queue = [] ∧ t.aon.ewdCount = s.aon.ewdPeriod ∧
      t.eng.ready = s.eng.ready ∧ t.mp.bank = (s.mp.bank && s.mp.up) ∧ (t.mp.fallbk = (s.mp.fallbk || (s.mp.bank && !s.mp.up))) ∧
      t.mem = s.mem ∧ bit t.eng.hirq hirqMprst = true) ∧
    (s.eng.mpbusy = true → Does .mpWarmResetReturn s fun t => t.eng.mpbusy = false ∧ t.mp.up = true ∧ t.mp.stgBase = 0x10000000 ∧
      (∀ k : MbId, bit t.mb.busy k.val = false) ∧ t.mp.fwver = (if s.mp.bank then s.mp.b1ver else Config.bootFwVer))

/-- MICROWORD_ISSUE (R64, R65, R68, R69, R81, R84, R93 to R95), returned data and fabric answers (R77, R88, R351), and the rewrites
of the scrub (R114, R115): after the queue's fetch, a word that adds into a temporary and goes on writes it and the next address,
one that breaks a rule or cannot be read stops the sequencer with its cause, a microbreak halts it before the word, and one that
holds only spends the cycle. -/
def Obligations.MicrowordsIssue : Prop :=
  ∀ (q : SeqId) (s u : State) (i : Fin 8) (p : ReadPend) (ps : List ReadPend) (f : FabReq) (v : List Byte) (isMap : Bool)
    (ad : BitVec 12) (tag : CmpPair),
    let b := s.fetchCycle q
    let x := b.seq q
    let a := x.mic.next
    let w := x.store.word a.toNat
    let y := x.result w (x.operand q w (mwAsrc w)) (x.operand q w (mwBsrc w))
    let breaks : Prop := mwBrk w = true ∧ x.dbg.ubrken = true ∧ x.dbg.ubSkip = false
    (s.microReady q = true → x.mic.disp = false →
      (x.store.ue.contains a.toNat = true → Does (.microwordIssue q) s fun t => (t.seq q).run = .mfault ∧
        (t.seq q).cs.mf = true ∧ (t.seq q).cs.cause = 4 ∧ (t.seq q).cs.uaddr = a ∧ (t.seq q).running = none ∧ (t.seq q).lock = none) ∧
      (x.store.ue.contains a.toNat = false → breaks → Does (.microwordIssue q) s fun t => (t.seq q).dbg.halted = true ∧
        (t.seq q).dbg.why = 3 ∧ (t.seq q).dbg.forced = x.dbg.forced ∧ (t.seq q).mic.next = a ∧ (t.seq q).lock = none) ∧
      (x.store.ue.contains a.toNat = false → x.store.ce.contains a.toNat = false → ¬breaks →
        (b.microHold q w y.val = some u → exec (.microwordIssue q) s = .next (u.modSeq q Seq.spendCc)) ∧
        (b.microHold q w y.val = none → namesMemd w = false ∨ x.mic.ueHeld = none →
          (∀ k n, b.wordFault q a w (b.condOf q w) = some (k, n) → Does (.microwordIssue q) s fun t => (t.seq q).run = .mfault ∧
            (t.seq q).cs.mf = true ∧ (t.seq q).cs.cause = k ∧ (t.seq q).cs.uaddr = a) ∧
          (b.wordFault q a w (b.condOf q w) = none → mwNac w ∈ [0, 1, 2, 3] → mwDst w = 0x28 + i.val → (mwAluop w).toNat = 0x12 →
            mwShf w = 0 → mwMem w = 0 → mwMul w = 0 → mwPool w = 0 → mwStrm w = 0 → mwMprt w = 0 → mwSeg w = 0 → mwEvt w = 0 →
            mwFlg w = 0 → mwCnt w = 0 → mwDec w = 0 → mwExct w = 0 → x.dbg.steps = 0 → Does (.microwordIssue q) s fun t =>
              let av := x.operand q w (mwAsrc w)
              let bv := x.operand q w (mwBsrc w)
              let m := (t.seq q).mic
              m.t = x.mic.t.set i (av + bv) ∧ m.uz = decide (av + bv = 0) ∧ m.uc = decide (65536 ≤ av.toNat + bv.toNat) ∧ m.upc = a ∧
              m.next = (if mwNac w = 1 ∨ (mwNac w = 2 ∧ b.condOf q w = true) ∨ (mwNac w = 3 ∧ b.condOf q w = false)
                then mwTgt w else a + 1) ∧
              m.stack = x.mic.stack ∧ t.regs q = x.regs ∧ t.mem = b.mem ∧ ∀ p, p ≠ q → t.seq p = b.seq p)))) ∧
    (s.alive q = true → (s.seq q).mic.reads = p :: ps → exec (.scratchReadReturn q) s = .next (s.modSeq q fun x => { x with
      mic := { x.mic with
        memd := p.value, memrdy := ps.isEmpty && !x.mic.fabRead, reads := ps
        ueHeld := if p.poisoned then some (p.seg, p.off) else x.mic.ueHeld } })) ∧
    (s.alive q = true → (s.seq q).mic.fab = some f →
      let answered (t : State) (retry fenced err : Bool) : Prop := (t.seq q).mic.fab = none ∧ (t.seq q).cond.retry = retry ∧
        (t.seq q).cond.fenced = fenced ∧ (t.seq q).cond.faberr = err
      (f.data = none →
        (s.memRead q f.addr f.size = .ok u v → Does (.fabricRequest q) s fun t =>
          (t.seq q).mic.memd = BitVec.ofNat 32 (ofLeBytes v) ∧ answered t false false false ∧ t.mem = u.mem) ∧
        (∀ c, s.memRead q f.addr f.size = .bus u c → c ≠ 0x20 → Does (.fabricRequest q) s fun t =>
          answered t false (decide (c = 0x22)) (decide (c ≠ 0x22)) ∧ t.mem = u.mem ∧ (t.seq q).mic.memd = (u.seq q).mic.memd) ∧
        (s.memRead q f.addr f.size = .retry → Does (.fabricRequest q) s fun t => answered t true false false ∧ t.mem = s.mem)) ∧
      (∀ bs, f.data = some bs →
        (s.memWrite q f.addr bs = .ok u () → Does (.fabricRequest q) s fun t => answered t false false false ∧ t.mem = u.mem) ∧
        (∀ c, s.memWrite q f.addr bs = .bus u c → Does (.fabricRequest q) s fun t =>
          answered t false (decide (c = 0x22)) (decide (c ≠ 0x22)) ∧ t.mem = u.mem) ∧
        (s.memWrite q f.addr bs = .retry → Does (.fabricRequest q) s fun t => answered t true false false ∧ t.mem = s.mem))) ∧
    (s.scrubOwes q isMap ad = true →
      ((if isMap then x.store.mue.contains ad.toNat else x.store.ue.contains ad.toNat) = false → Does (.scrubRewrite q isMap ad) s fun t =>
        (q, isMap, ad) ∉ t.mp.scrubOwed ∧ (isMap = true → ad.toNat ∉ (t.seq q).store.mce) ∧ (isMap = false → ad.toNat ∉ (t.seq q).store.ce) ∧
        (t.seq q).store.set = x.store.set ∧ t.regs q = s.regs q) ∧
      ((if isMap then x.store.mue.contains ad.toNat else x.store.ue.contains ad.toNat) = true →
        (tag.eq = true → tag.eqn = false → Does (.controlStoreRepair q isMap ad tag) s fun t =>
          let set := (s.gal (galOf q)).installed
          (isMap = true → (t.seq q).store.entry ad.toNat = set.entry ad.toNat ∧ ad.toNat ∉ (t.seq q).store.mue) ∧
          (isMap = false → (t.seq q).store.word ad.toNat = set.word ad.toNat ∧ ad.toNat ∉ (t.seq q).store.ue) ∧
          (t.seq q).run = x.run ∧ ∃ r ∈ t.recd.staging, r.code = 0x11) ∧
        (tag.eq = false → Does (.controlStoreRepair q isMap ad tag) s fun t => (t.seq q).store = x.store ∧
          (q, isMap, ad) ∉ t.mp.scrubOwed)))

/-! ### Commands by mailbox -/

/-- The engine, microcode and firmware commands (R101 to R110, R112, R116 to R119, R324 to R327, R402): each, where its checks pass,
has its effect and answers OK with its payload; a staging command copies its image into the MPSTG region; a set that fails its tags
is not marked verified; UCODE_COMMIT installs the staged parts, leaves a gallery that differs on read-back or is still being
written with CSVER 0, and squeezes one that serves first; a failed transfer answers TIMEOUT. -/
def Obligations.EngineAndFirmwareCommands : Prop :=
  ∀ (m : MbId) (tags : List CmpPair) (bad : Half) (tag : CmpPair) (g : GalId) (code : BitVec 3) (s : State), s.eng.bistDead = false →
    let runs (code : Nat) : Prop := s.taken m code = true
    let a := s.arg m 0 8
    let n := s.arg m 8 4
    let region := s.mp.stgBase.toNat * 0x400000
    let staging (code : Nat) (kinds : List Nat) : Prop := runs code ∧ inBuffer a n = true ∧
      s.inStaging a n = false ∧ 64 ≤ n ∧ s.arg m 12 4 = 0 ∧ s.imgBad a kinds = false ∧ n = 64 + s.img a 0x14 4 + s.img a 0x1C 1
    let p := s.imgPart a
    let payload := s.mem.readBytes (a + 64) (s.img a 0x14 4)
    let stages (i : Instr) (mp : Nat → Mp) : Prop := Does i s fun t => ∃ (u : State) (d : Nat), t = u.reply m mbOK 0 (imgReply p) ∧
      region ≤ d ∧ d + n ≤ region + 0x400000 ∧ u.mp = mp d ∧ (MemOk s → Stored s u d (s.mem.readBytes a n))
    let ends (i : Instr) (status : Byte) (detail : Nat) : Prop := Does i s fun t => ∃ u : State, t = u.reply m status detail ∧ u.mp = s.mp
    let good (y : CmpPair) : Prop := y.eq = true ∧ y.eqn = false ∧ y.late = false
    (runs 0x0101 → exec (.engInfo m) s = .next (s.reply m mbOK 0 (s.regBytes [.engid, .engver, .engcfg, .mpfwver, .mpbank]
      ++ leBytes 4 (if s.mp.bank then Config.fwFloor s.mp.fwRam else Config.bootFloor).toNat ++ leBytes 4 0x00010000
      ++ s.regBytes [.mpstg]))) ∧
    (runs 0x0102 → exec (.engStatus m) s = .next (s.reply m mbOK 0 (s.regBytes
      [.engst, .ledgst, .plantst, .holdst, .ctxst, .ticknum false, .ticknum true, .hirq]))) ∧
    (runs 0x0103 → s.arg m 1 3 = 0 →
      (s.eng.state = .start → s.arg m 0 1 = 5 → s.ledger.armed = true → Does (.engState m) s fun t => t.eng.state = .service ∧
        t.eng.win = false ∧ bit t.mb.done m.val = true ∧ ∀ (g : GalId) (k : Fin 8), s.present g = true → (t.timer g k).auto = false) ∧
      (s.eng.state = .service → s.arg m 0 1 = 6 → Does (.engState m) s fun t => t.eng.state = .recovery) ∧
      (s.eng.state = .service → s.arg m 0 1 = 7 → exec (.engState m) s = .next (s.reply m mbSTATE 5))) ∧
    (runs 0x0104 → s.eng.state ≠ .service → Does (.winOpen m) s fun t => t.eng.win = true ∧ bit t.mb.done m.val = true) ∧
    (runs 0x0104 → s.eng.state = .service → exec (.winOpen m) s = .next (s.reply m mbDENIED)) ∧
    (runs 0x0105 → Does (.winClose m) s fun t => t.eng.win = false ∧ bit t.mb.done m.val = true) ∧
    (s.mp.commits = [] →
      (staging 0x0201 [1, 2] → stages (.ucodeStage m .ok) fun d =>
        { s.mp with staged := s.mp.staged.put { p with place := d, size := n }, verified := false }) ∧
      (staging 0x0204 [3, 4] → stages (.mapLoad m .ok) fun d =>
        { s.mp with staged := s.mp.staged.put { p with place := d, size := n }, verified := false }) ∧
      (staging 0x0201 [1, 2] → ends (.ucodeStage m (.failed code)) mbTIMEOUT code.toNat)) ∧
    (p.slot = Config.aferSlot →
      (staging 0x0205 [5] → s.mp.bank = false →
        (good tag → stages (.fwStage m .ok tag) fun _ => { s.mp with b1valid := true, b1ver := p.imgver, fwRam := payload }) ∧
        (tag.eq = false → ends (.fwStage m .ok tag) mbAUTHFAIL 0)) ∧
      (staging 0x0207 [6] → good tag → p.bindver = s.mp.fwver → s.img a 0x14 4 ≤ 65536 →
        if Config.patchNamesLantern payload = true then ends (.patchLoad m .ok tag) mbBADARG 0
        else stages (.patchLoad m .ok tag) fun _ => { s.mp with
          patches := some p.imgver, patchRam := payload, patchUnits := Vector.ofFn fun i => Config.patchUnit payload i.val })) ∧
    (runs 0x0206 → s.arg m 1 3 = 0 → s.arg m 0 1 = 1 → s.mp.b1valid = true → Does (.fwSwitch m) s fun t =>
      t.eng.mpbusy = true ∧ t.mp.bank = true ∧ t.mp.up = false ∧ bit t.eng.rstcause 4 = true ∧ bit t.mb.done m.val = true) ∧
    (runs 0x0202 → s.absentMask (s.arg m 0 2) = false → s.arg m 2 2 = 0 → s.mp.commits = [] → s.mp.staged.parts ≠ [] →
      (∀ k, k ∈ s.mp.staged.parts → k.slot = slotOf k.kind) →
      (tags.length = s.mp.staged.parts.length → (∀ y ∈ tags, good y) →
        (∀ x ∈ s.targetSets (s.maskGals (s.arg m 0 2)), x.fault = none ∧ ∀ k, x.af = some k → s.floor.toNat ≤ k.imgver.toNat) →
        exec (.ucodeVerify m tags) s =
          .next (({ s with mp := { s.mp with verified := true } } : State).reply m mbOK 0 (List.replicate 8 0))) ∧
      (tags.head? = some tag → tag.eq = false → Does (.ucodeVerify m tags) s fun t => t.mp = s.mp ∧ t.mem = s.mem ∧ t.gals = s.gals)) ∧
    (runs 0x0203 → s.arg m 0 2 = 2 ^ g.val → s.arg m 2 2 = 0 → s.present g = true → s.mp.verified = true →
      (∀ c ∈ s.mp.commits, c.box ≠ m ∧ g ∉ c.todo) → s.logicOn g = true → (s.gal g).power = none →
      let set := s.mp.staged.overlay (s.gal g).installed
      let reset (t : State) : Prop := ∀ q, galOf q = g → (t.seq q).cs.csver = 0 ∧ (t.seq q).run = .reset ∧ (t.seq q).store.valid = false
      let goesOn (t : State) (writing : Bool) : Prop := ∃ c ∈ t.mp.commits, c.box = m ∧ c.todo = [g] ∧ c.done = 0 ∧ c.writing = writing
      ((s.gal g).gstate = .squeezed ∨ (s.gal g).gstate = .fenced →
        (bit bad g.val = false → Does (.ucodeCommit m tags ⟨bad, none⟩) s fun t =>
          (t.gal g).installed.unplaced = set.unplaced ∧ (t.gal g).mapver = set.mapver ∧ t.mp.commits = s.mp.commits ∧
          bit t.mb.done m.val = true ∧ ∀ q, galOf q = g →
            (t.seq q).store = { set := set, valid := true } ∧ (t.seq q).cs.csver = set.csver ∧ (t.seq q).run = .word0) ∧
        (bit bad g.val = true → Does (.ucodeCommit m tags ⟨bad, none⟩) s fun t => reset t ∧ (t.gal g).installed = (s.gal g).installed ∧
          (t.gal g).mapver = 0 ∧ t.mp.commits = s.mp.commits ∧ bit t.mb.done m.val = true) ∧
        Does (.ucodeCommit m tags ⟨bad, some g⟩) s fun t => reset t ∧ (t.gal g).mapver = 0 ∧ goesOn t true ∧
          bit t.mb.done m.val = bit s.mb.done m.val) ∧
      ((s.gal g).gstate = .serving → s.eng.state = .start → Does (.ucodeCommit m tags ⟨bad, none⟩) s fun t =>
        (t.gal g).gstate = .squeezing ∧ goesOn t false ∧ bit t.mb.done m.val = bit s.mb.done m.val))

/-- The context and program commands (R329, R331 to R335): CTX_OPEN writes an OPEN entry and its save area, CTX_CLOSE frees it,
SEG_BIND places a descriptor, PROG_LOAD copies an object that PROG_UNLOAD drops, and the queries answer what is stored. -/
def Obligations.ContextAndProgramCommands : Prop :=
  ∀ (m : MbId) (g : GalId) (q : SeqId) (code : BitVec 3) (s : State), s.eng.bistDead = false → s.ecc.ue = [] → s.ecc.ce = [] →
    let runs (code : Nat) : Prop := s.taken m code = true
    let c : Half := BitVec.ofNat 16 (s.arg m 0 2)
    (runs 0x0305 → s.arg m 0 1 = g.val → s.present g = true → s.arg m 1 3 = 0 → Does (.galQuery m) s fun t =>
      ∃ p, t = s.reply m mbOK 0 p ∧ p.length = 32 ∧ p.head? = some (BitVec.ofNat 8 (s.gal g).gstate.code) ∧
        (p.drop 2).take 2 = leBytes 2 (s.homedCount g)) ∧
    (runs 0x0407 → c ≠ 0xFFFF → s.arg m 2 2 = 0 →
      exec (.ctxQuery m) s = .next (s.reply m mbOK 0 (s.mem.readBytes (ctxAddr c) 32))) ∧
    (s.operating = true → c ≠ 0xFFFF →
      (runs 0x0401 → s.ctxState c = ctxFREE → s.arg m 3 1 = g.val → s.serving g = true → s.arg m 4 8 % 256 = 0 →
        inBuffer (s.arg m 4 8) 256 = true → s.inStaging (s.arg m 4 8) 256 = false → s.arg m 12 8 = 0 →
        (MemOk s → Does (.ctxOpen m .ok) s fun t => t.ctxState c = ctxOPEN ∧ t.ctxHome c = g ∧ t.ctxSave c = s.arg m 4 8 ∧
          t.ctxFlag c 0 = false ∧ t.ctxFlag c 2 = false ∧ bit t.mb.done m.val = true ∧ (∀ q, t.regs q = s.regs q) ∧
          t.mem.readBytes (s.arg m 4 8) 256 = openImage 0) ∧
        Does (.ctxOpen m (.failed code)) s fun t => ∃ u : State, t = u.reply m mbTIMEOUT code.toNat ∧ u.mem = s.mem ∧ u.mp = s.mp) ∧
      (runs 0x0402 → s.arg m 2 2 = 1 → (∀ e ∈ s.mp.closing, e.1 ≠ c) → s.ctxState c = ctxBOUND → s.boundSeq c = some q →
        Does (.ctxClose m) s fun t => (t.seq q).unbind = some .close ∧ (c, m) ∈ t.mp.closing ∧
          m ∉ t.mb.queue ∧ t.mem = s.mem ∧ bit t.mb.done m.val = bit s.mb.done m.val) ∧
      (runs 0x0402 → s.arg m 2 2 = 0 → (∀ e ∈ s.mp.closing, e.1 ≠ c) → s.ctxState c = ctxOPEN → s.boundSeq c = none → MemOk s →
        Does (.ctxClose m) s fun t => t.ctxState c = ctxFREE ∧ bit t.mb.done m.val = true ∧ ∀ e ∈ t.mp.closing, e.1 ≠ c) ∧
      (runs 0x0403 → s.ctxState c = ctxOPEN → s.arg m 2 1 < 8 → s.arg m 3 1 = 0 → (∀ e ∈ s.mp.closing, e.1 ≠ c) →
        let n := s.arg m 2 1
        let d : Desc := BitVec.ofNat 128 (s.arg m 4 16)
        (∀ e ∈ s.bindChecks (BitVec.ofNat 3 n) (s.ctxHome c) d, e.1 = false) →
        (MemOk s → inBuffer (s.ctxSave c) 256 = true → Does (.segBind m .ok) s fun t => bit t.mb.done m.val = true ∧
          (s.ctxFlag c 0 = false → Stored s t (s.ctxSave c + 0x80 + 16 * n) (leBytes 16 d.toNat)) ∧
          (s.ctxFlag c 0 = true → t.mem.readBytes (s.ctxSlot c + 0x80 + 16 * n) 16 = leBytes 16 d.toNat)) ∧
        (MemOk s → Does (.segBind m (.failed code)) s fun t => t.ctxState c = ctxBROKEN ∧ bit t.mb.done m.val = true))) ∧
    (s.operating = true → runs 0x0404 → s.arg m 0 2 < 1024 → (∀ p ∈ s.mp.progs, p.id.toNat ≠ s.arg m 0 2) → s.arg m 2 1 = g.val →
      s.logicOn g = true → s.galHeld g = false → s.arg m 3 1 = 0 → s.arg m 0x10 4 = 0 →
      let size := s.arg m 12 4
      size % 4 = 0 → 0 < size → size ≤ 65536 → inBuffer (s.arg m 4 8) size = true → s.inStaging (s.arg m 4 8) size = false →
      placesFor (s.noProgram g) size 256 ≠ [] → MemOk s → Does (.progLoad m .ok) s fun t =>
        ∃ p : Prog, t.mp.progs = s.mp.progs ++ [p] ∧ p.id.toNat = s.arg m 0 2 ∧ p.gal = g ∧ p.size = size ∧ p.off % 256 = 0 ∧
          (∀ r ∈ s.noProgram g, overlaps p.off size r = false) ∧
          Stored s t (scratchAddr g p.off) (s.mem.readBytes (s.arg m 4 8) size) ∧ bit t.mb.done m.val = true) ∧
    (s.operating = true → runs 0x0405 → s.arg m 0 2 < 1024 → s.arg m 2 2 = 0 → ∀ p, s.mp.progs.find? (fun p => p.id.toNat = s.arg m 0 2) = some p →
      s.progUsed p = false → exec (.progUnload m) s = .next (({ s with
        mp := { s.mp with progs := s.mp.progs.filter fun p => p.id.toNat != s.arg m 0 2 } } : State).reply m mbOK))

/-- The plant, event, timer, trace and recorder commands, commits and packets (R337 to R339, R386 to R388): plant and phase values
wait for the next boundary, the others act at once, a commit spends one credit, and packets leave oldest first. -/
def Obligations.SetupAndRecorderCommands : Prop :=
  ∀ (m : MbId) (g : GalId) (t : Fin 8) (j : Fin 64) (code : BitVec 3) (s : State), s.eng.bistDead = false →
    let runs (code : Nat) : Prop := s.taken m code = true
    let w (off : Nat) : Word := BitVec.ofNat 32 (s.arg m off 4)
    let waits (i : Instr) (b : BoundaryWrite) : Prop := exec i s = .next { s with plant := { s.plant with writes := s.plant.writes ++ [b] } }
    (runs 0x0501 → s.arg m 0 1 = g.val → s.arg m 2 2 = 0 → s.logicOn g = true → Does (.budgetSet m) s fun u =>
      (u.gal g).weight.toNat = s.arg m 1 1 ∧ (∀ h, h ≠ g → u.gal h = s.gal h) ∧ bit u.mb.done m.val = true) ∧
    (runs 0x0502 → s.arg m 0 2 < 0x4000 → s.arg m 2 2 = 0 → waits (.plantCfg m) (.plant m (BitVec.ofNat 16 (s.arg m 0 2))
      ((List.range 14).map fun i => w (4 + 4 * i)))) ∧
    (runs 0x0503 → (s.eng.state = .service → bit (w 0) 31 = s.pow.holdEn) → waits (.holdupCfg m) (.hold m (w 0))) ∧
    (runs 0x0504 → s.arg m 0 4 < 2 ^ 21 → s.arg m 4 2 < 2 ^ 11 → 256 ≤ s.arg m 6 2 → s.arg m 6 2 < 4096 → Does (.tickCfg m) s fun u =>
      u.plant.pendCfg = some (BitVec.ofNat 32 (s.arg m 4 2 * 2 ^ 21 + s.arg m 0 4)) ∧ u.plant.period = s.plant.period ∧
      u.plant.pendGuard = some (BitVec.ofNat 12 (s.arg m 6 2)) ∧ u.mb = s.mb) ∧
    (runs 0x0601 → s.arg m 1 3 = 0 → s.chsubRefused (BitVec.ofNat 8 (s.arg m 0 1)) (w 4) = false → Does (.evtSub m) s fun u =>
      ∃ v : State, u = v.reply m mbOK 0 (leBytes 4 (s.chsub (BitVec.ofNat 8 (s.arg m 0 1))).toNat) ∧
        exec (.chsubWrite (BitVec.ofNat 8 (s.arg m 0 1)) (w 4)) s = .next v) ∧
    (runs 0x0601 → s.arg m 1 3 = 0 → s.chsubRefused (BitVec.ofNat 8 (s.arg m 0 1)) (w 4) = true →
      exec (.evtSub m) s = .next (({ s with ev := { s.ev with suberr := true } } : State).reply m mbDENIED)) ∧
    (runs 0x0602 → s.arg m 0 1 = j.val → s.arg m 1 1 < 2 → s.arg m 2 2 = 0 → (s.ev.cells[j]).ctlRefused (w 8) = true →
      exec (.lutProg m) s = .next (({ s with ev := { s.ev with luterr := true } } : State).reply m mbSTATE)) ∧
    (runs 0x0602 → s.arg m 0 1 = j.val → s.arg m 1 1 = 1 → s.arg m 2 2 = 0 → (s.ev.cells[j]).ctlRefused (w 8) = false →
      Does (.lutProg m) s fun u => (u.ev.cells[j]).sel = w 4 ∧ (u.ev.cells[j]).ctl = w 8 ∧ (u.ev.cells[j]).forced = false ∧
        bit u.mb.done m.val = true) ∧
    (runs 0x0603 → s.arg m 0 1 = g.val → s.arg m 1 1 = t.val → s.arg m 2 2 = 5 → s.arg m 0x0E 2 = 0 → (s.timer g t).en = false →
      s.eng.state ≠ .service → s.timerOn g = true → Does (.timerCfg m) s fun u => (u.timer g t).count.toNat = s.arg m 8 8 ∧
        (u.timer g t).intv = w 0x18 ∧ (u.timer g t).cmp = (s.timer g t).cmp ∧ (u.timer g t).pre.toNat = s.arg m 4 1 ∧
        bit u.mb.done m.val = true) ∧
    (runs 0x0604 → s.arg m 1 3 = 0 → (∀ k, k < 16 → s.phaseBad m (s.arg m 0 1) k = false) →
      (s.arg m 0 1 = 0 → waits (.stagger m) (.stagger [] m)) ∧
      (s.arg m 0 1 = 1 → waits (.stagger m) (.stagger ((List.range 16).map fun k => BitVec.ofNat 21 (s.arg m (4 + 4 * k) 4)) m))) ∧
    (runs 0x0703 → w 16 &&& 0x7F00FFC0 = 0 → exec (.traceCfg m) s = .next (({ s with
      trace := { s.trace with ctl := w 16, seqs := BitVec.ofNat 128 (s.arg m 0 16) } } : State).reply m mbOK)) ∧
    (let n := s.arg m 2 2
     let ring := if s.arg m 0 1 = 0 then s.recd.staging else s.recd.nv
     let l := (ring.filter fun r => notBefore r.num (w 4)).take n
     runs 0x0701 → s.arg m 0 1 < 2 → s.arg m 1 1 = 0 → 0 < n → n ≤ 4096 → inBuffer (s.arg m 8 8) (64 * n) = true →
      s.inStaging (s.arg m 8 8) (64 * n) = false →
      (MemOk s → Does (.bbRead m .ok) s fun u => Stored s u (s.arg m 8 8) (l.flatMap Rec.bytes) ∧ bit u.mb.done m.val = true ∧ u.recd = s.recd) ∧
      Does (.bbRead m (.failed code)) s fun u => ∃ v : State, u = v.reply m mbTIMEOUT code.toNat ∧ v.mem = s.mem ∧ v.recd = s.recd) ∧
    (runs 0x0702 → s.arg m 0 1 < 2 → s.arg m 1 3 = 0 → Does (.bbMark m) s fun u =>
      (∃ r ∈ u.recd.staging, r.num = s.recd.next ∧ r.code = 0xF0 ∧ r.payload = s.mb.bytes.readBytes (m.val * 256 + 20) 44) ∧
      (s.arg m 0 1 = 1 → s.recd.credit ≠ 0 → u.recd.request = some s.recd.next) ∧
      (s.arg m 0 1 = 0 → u.recd.request = s.recd.request) ∧ u.recd.credit = s.recd.credit ∧ bit u.mb.done m.val = true) ∧
    (∀ x, s.nextCommit = some x → s.lastLight = false →
      (s.recd.credit ≠ 0 → Does .recordCommit s fun u => u.recd.credit = s.recd.credit - 1 ∧ x.committed = false ∧
        (∀ y ∈ u.recd.staging, y.num = x.num → y.committed = true) ∧ ∃ y ∈ u.recd.nv, y = { x with committed := true }) ∧
      (s.recd.credit = 0 → exec .recordCommit s = .next { s with recd := { s.recd with request := none } })) ∧
    (s.recd.credit.toNat < s.recd.burst.toNat → exec .commitCreditRise s = .next { s with recd := { s.recd with credit := s.recd.credit + 1 } }) ∧
    (s.recd.burst.toNat ≤ s.recd.credit.toNat → exec .commitCreditRise s = .next s) ∧
    ∀ p rest, s.trace.fifo = p :: rest → exec .tracePacket s = .next { s with trace := { s.trace with fifo := rest, last := some p } }

/-! ### Lantern -/

/-- Lantern's commands and the ropes (R359 to R376): attachment by challenge and response, halt, resume and step, breakpoints,
registers through the debug master, memory spaces, the register image and ropes; each is DENIED until Lantern is attached. -/
def Obligations.LanternCommands : Prop :=
  ∀ (m : MbId) (g : GalId) (k r : Fin 8) (tag : CmpPair) (x : MpXfer) (s : State), s.eng.bistDead = false →
    let a := s.aon
    let lan (code : Nat) : Prop := s.taken m code = true ∧ a.att = true
    let q := seqId g k
    let named (off : Nat) : Prop := s.arg m off 1 = g.val ∧ s.arg m (off + 1) 1 = k.val ∧ s.logicOn g = true ∧ (s.seq q).dbg.halted = true
    let masked (p : SeqId) : Bool := (s.arg m 0 16).testBit p.val
    let w (off : Nat) : Word := BitVec.ofNat 32 (s.arg m off 4)
    (s.taken m 0x0801 = true → s.arg m 1 3 = 0 → a.lock = false → a.slot ≠ 0xFF → a.att = false →
      (s.arg m 0 1 = 0 → s.arg m 4 32 = 0 → let n := Config.nonceOf a.nonceCtr
        exec (.dbgAttachChallenge m) s = .next (({ s with aon := { a with nonceCtr := a.nonceCtr + 1, nonce := some n } } : State).reply m
          mbOK 0 (leBytes 16 n.toNat))) ∧
      (s.arg m 0 1 = 1 → a.nonce.isSome = true →
        (tag.eq = true → tag.eqn = false → tag.late = false → Does (.dbgAttachResponse m tag) s fun t => t.aon = { a with att := true, nonce := none } ∧
          (∃ y ∈ t.recd.staging, y.code = 0x50) ∧ bit t.mb.done m.val = true) ∧
        (tag.eq = false → Does (.dbgAttachResponse m tag) s fun t => t.aon.att = false ∧ t.aon.nonce = none ∧
          ∃ y ∈ t.recd.staging, y.code = 0x51))) ∧
    (a.att = false →
      (s.taken m 0x0803 = true → exec (.dbgHalt m) s = .next (s.reply m mbDENIED)) ∧
      (s.taken m 0x0809 = true → exec (.dbgReadmem m x) s = .next (s.reply m mbDENIED))) ∧
    (lan 0x0802 → Does (.dbgDetach m) s fun t => t.aon.att = false ∧ t.aon.lock = a.lock ∧ t.aon.xtsrc = a.xtsrc ∧
      ((∀ p, (s.seq p).prefetch = none) → t.aon = { a with att := false }) ∧
      (∀ u : Fin 8, t.mp.bpAddrL[u] = 0 ∧ t.mp.bpAddrH[u] = 0 ∧ t.mp.bpCtl[u] = 0x0000FFFF) ∧
      ∀ p, s.present (galOf p) = true → (t.seq p).dbg.halted = false ∧ (t.seq p).dbg.brkhalt = false ∧ (t.seq p).dbg.ubrken = false) ∧
    ((∀ p, masked p = true → s.logicOn (galOf p) = true) →
      (lan 0x0803 → Does (.dbgHalt m) s fun t => bit t.mb.done m.val = true ∧ ∀ p,
        (masked p = true → (t.seq p).dbg.halted = true ∨ (t.seq p).dhalt = true) ∧ (masked p = false → t.seq p = s.seq p) ∧
        t.regs p = s.regs p) ∧
      (lan 0x0804 → Does (.dbgResume m) s fun t => bit t.mb.done m.val = true ∧ ∀ p, masked p = true → (t.seq p).dbg.halted = false)) ∧
    (named 0 → lan 0x0805 → s.arg m 3 1 = 0 → 0 < s.arg m 4 2 → s.arg m 4 2 ≤ 256 → s.arg m 6 2 = 0 →
      let stepping (unit : Bool) (t : State) : Prop := (t.seq q).dbg.halted = false ∧ (t.seq q).dbg.steps = s.arg m 4 2 ∧
        (t.seq q).dbg.stepUnit = unit ∧ (q, m, s.arg m 4 2) ∈ t.mp.stepping ∧ t.regs q = s.regs q ∧ t.mb = s.mb
      (s.arg m 2 1 = 0 → Does (.dbgStepInstruction m) s (stepping false)) ∧
      (s.arg m 2 1 = 1 → Does (.dbgStepMicroword m) s (stepping true))) ∧
    (∀ n, s.mp.stepping.find? (fun e => e.1 = q) = some (q, m, n) → Does (.stepTimeout q) s fun t => bit t.mb.done m.val = true ∧
      (∀ e ∈ t.mp.stepping, e.1 ≠ q) ∧ (t.seq q).dbg.steps = 0 ∧ ((t.seq q).dbg.halted = true ∨ (t.seq q).dhalt = true)) ∧
    (lan 0x0806 → s.arg m 0 1 = 24 + k.val → s.absentMask (s.arg m 2 2) = false → s.arg m 6 2 = 0 → s.arg m 8 8 % 4 = 0 →
      regionOf (s.arg m 8 8) = 2 →
      let unit (on : Bool) (t : State) : Prop := bit t.mp.bpAddrH[k] 31 = on ∧ (t.mp.bpCtl[k]).toNat = s.arg m 2 2 * 65536 + s.arg m 4 2 ∧
        (t.mp.bpAddrL[k]).toNat + 2 ^ 32 * ((t.mp.bpAddrH[k]).toNat % 2 ^ 20) = s.arg m 8 8 % 2 ^ 52 ∧ bit t.mb.done m.val = true
      (s.arg m 1 1 = 1 → Does (.dbgBreakSet m) s (unit true)) ∧ (s.arg m 1 1 = 0 → Does (.dbgBreakClear m) s (unit false))) ∧
    (lan 0x0807 → pokeBad (s.arg m 0 4) (s.arg m 4 1) = false → 0 < s.arg m 4 1 → s.arg m 4 1 ≤ 28 → s.arg m 5 3 = 0 →
      (∀ i, i < s.arg m 4 1 → s.spot true (s.arg m 0 4 + 4 * i) ≠ .down) → exec (.dbgPeek m) s = .next (s.reply m mbOK 0
        ((List.range (s.arg m 4 1)).flatMap fun i => leBytes 4 (s.peekWord (s.arg m 0 4 + 4 * i)).toNat))) ∧
    (∀ y : Reg, lan 0x0808 → pokeBad (s.arg m 0 4) 1 = false → s.spot true (s.arg m 0 4) = .reg y → y.ownerBits = 0 →
      let v := (w 4 &&& w 8) ||| (s.regValue y &&& ~~~(w 8) &&& ~~~y.oneBits)
      let t := s.regWrite y v .lantern
      exec (.dbgPoke m) s = .next (t.reply m mbOK 0 (leBytes 4 (t.regValue y).toNat))) ∧
    ((∀ e ∈ s.spaceChecks m, e.1 = false) →
      let n := s.arg m 3 1
      let ad := s.arg m 4 8
      let bs := s.mb.bytes.readBytes (m.val * 256 + 28) n
      (lan 0x0809 → s.arg m 0 1 = 1 → Does (.dbgReadmem m .ok) s fun t =>
        ∃ u : State, t = u.reply m mbOK 0 (s.mem.readBytes ad n) ∧ u.mem = s.mem ∧ u.mb = s.mb) ∧
      (lan 0x0809 → s.arg m 0 1 = 0 → ∀ o, placeOf ad = .scratch g o → Does (.dbgReadmem m x) s fun t =>
        ∃ u : State, t = u.reply m mbOK 0 (s.mem.readBytes ad n) ∧ u.mem = s.mem ∧ u.mb = s.mb) ∧
      (lan 0x080A → s.arg m 0 1 = 1 → s.inStaging ad n = false → MemOk s →
        Does (.dbgWritemem m .ok) s fun t => Stored s t ad bs ∧ bit t.mb.done m.val = true) ∧
      (lan 0x080A → s.arg m 0 1 = 0 → exec (.dbgWritemem m x) s = .next ((s.store ad bs).reply m mbOK)) ∧
      (lan 0x080A → s.arg m 0 1 = 2 → n = 24 → s.arg m 1 1 = g.val → s.arg m 2 1 = k.val → s.storesOpen m = true →
        Does (.dbgWritemem m x) s fun t => (t.seq q).cs.csver = 0 ∧ ((t.seq q).store.word ad).toNat = s.arg m 12 24 ∧
          ∀ b, b ≠ ad → (t.seq q).store.word b = (s.seq q).store.word b)) ∧
    (lan 0x080B → s.arg m 0 1 = r.val → s.arg m 1 3 = 0 → s.absentMask (s.arg m 6 2) = false → s.absentMask (s.arg m 8 2) = false →
      s.absentMask (s.arg m 10 2) = false → Does (.dbgXtrig m) s fun t => t.aon.xtsrc[r] = w 4 &&& 0xFFFF0007 ∧ t.aon.xtdst[r] = w 8 ∧
        ∀ j, j ≠ r → t.aon.xtsrc[j] = a.xtsrc[j] ∧ t.aon.xtdst[j] = a.xtdst[j]) ∧
    (named 0 → lan 0x080C → 0 < s.arg m 3 1 → s.arg m 3 1 ≤ 96 → s.arg m 4 2 + s.arg m 3 1 ≤ 0x140 → s.arg m 6 2 = 0 →
      (s.arg m 2 1 = 0 → exec (.dbgRegsRead m) s =
        .next (s.reply m mbOK 0 (((s.seq q).image.drop (s.arg m 4 2)).take (s.arg m 3 1)))) ∧
      (s.arg m 2 1 = 1 → s.arg m 4 2 = 0 → s.arg m 3 1 = 32 → Does (.dbgRegsWrite m) s fun t => ∃ u : State, t = u.reply m mbOK ∧
        OnlySeq q s u ∧ u.mem = s.mem ∧ (∀ i : Fin 32, ((u.regs q).b[i]).toNat = s.arg m (8 + i.val) 1) ∧
        (u.regs q).pc = (s.regs q).pc ∧ (u.regs q).a = (s.regs q).a ∧ (u.regs q).spr = (s.regs q).spr)) ∧
    (bit a.xtsrc[r] 1 = true → s.ropeArmed r = true → Does (.xtInEdge r) s fun t => bit t.aon.xtOut r.val = true ∧
      bit t.aon.fired r.val = true ∧ ∀ p, bit a.xtdst[r] (16 + (galOf p).val) = true → s.logicOn (galOf p) = true →
        (s.seq p).dbg.halted = false → (s.seq p).dhalt = false →
        (t.seq p).dhalt = true ∧ (t.seq p).dbg.why = 5 ∧ (t.seq p).dbg.rope = some r) ∧
    ((bit a.xtsrc[r] 1 = false ∨ s.ropeArmed r = false) → exec (.xtInEdge r) s = .next s) ∧
    (bit a.xtOut r.val = true → Does (.ropePulseEnd r) s fun t => bit t.aon.xtOut r.val = false ∧
      (∀ j : Fin 8, j ≠ r → bit t.aon.xtOut j.val = bit a.xtOut j.val) ∧ t.seqs = s.seqs)

/-! ### Start-up, resets and power -/

/-- Start-up (R341 to R343), the engine and debug resets (R353, R393), last light and the return of power (R355 to R358). -/
def Obligations.StartAndPower : Prop :=
  ∀ (bist : Bool) (mhz : BitVec 11) (ratio : BitVec 24) (bad : List BistFail) (failed : Half) (grant hold : BitVec 24) (n : Nat)
    (g : GalId) (d : Fin 40) (e : BitVec 12) (tags : List CmpPair) (s : State),
    (Does (.powerOnReset bist) s fun t => t.eng.state = .calib ∧ t.eng.bisten = bist ∧ t.eng.rstcause = 1 ∧ t.pending = s.pending ∧
      (∀ q, t.seq q = {}) ∧ t.recd.nv = s.recd.nv ∧ t.recd.staging = [] ∧ t.pd.on = 0 ∧ t.pd.req = 2 ^ 32 ∧
      (∀ a, t.mem.get a = if a < scratchBase then s.mem.get a else 0)) ∧
    (s.eng.state = .calib → s.pd.back = none →
      (bit s.pd.req d.val = true → s.pdOn d.val = false →
        (s.pd.failed = false → Does (.pdAck d true) s fun t => t.pdOn d.val = true ∧ t.seqs = s.seqs ∧ t.eng.state = .calib ∧
          ∀ k, (s.raiseOrder.filter (· ≠ d.val)).find? (fun k => !s.pdOn k) = some k → bit t.pd.req k = true ∧ t.pdOn k = false) ∧
        (s.pd.failed = true → exec (.pdAck d true) s = .next s) ∧
        Does (.pdAckTimeout d) s fun t => t.pd.pderr = true ∧ t.pd.failed = true ∧ t.pd.errpd = BitVec.ofNat 6 d.val ∧
          t.eng.state = .calib ∧ t.pdOn d.val = false) ∧
      (s.pd.failed = false → (∀ k ∈ s.raiseOrder, s.pdOn k = true) → Does (.calibComplete mhz ratio) s fun t =>
        t.eng.state = .init ∧ t.plant.mhz = mhz ∧ t.ev.ratio = ratio ∧ t.pd = s.pd ∧
        (tickOk (10 * mhz.toNat) mhz.toNat s.plant.tguard.toNat ratio.toNat = true → t.plant.period.toNat = 10 * mhz.toNat ∧
          ∀ g, s.present g = true → (t.gal g).phase = BitVec.ofNat 21 (g.val * (10 * mhz.toNat) / s.variant.ngal))) ∧
      ((s.pd.failed = true ∨ ∃ k ∈ s.raiseOrder, s.pdOn k = false) → exec (.calibComplete mhz ratio) s = .next s)) ∧
    (s.eng.state = .init → Does (.initComplete bad) s fun t => t.eng.state = .load ∧ t.eng.ready = true ∧ t.mp.up = true ∧
      t.mp.bank = false ∧ (s.eng.bisten = true → (∃ d, BistFail.shared d ∈ bad) → t.eng.bistDead = true) ∧
      (s.eng.bisten = true → ∀ g, s.present g = true → BistFail.gallery g ∈ bad → (t.gal g).gstate = .off)) ∧
    (s.eng.state = .load → s.eng.bistDead = false → Does (.loadComplete ⟨failed, grant, hold⟩) s fun t => t.eng.state = .start ∧
      t.plant.tickOn = true ∧ t.plant.ticknum = 0 ∧ t.pow.grant = grant ∧ ∀ g, s.logicOn g = true →
        (bit failed g.val = false → (t.gal g).gstate = .serving ∧ (t.gal g).installed.unplaced = bootSet.unplaced ∧
          ∀ q, galOf q = g → (t.seq q).cs.csver = bootSet.csver ∧ (t.seq q).run = .word0) ∧
        (bit failed g.val = true → (t.gal g).gstate = (s.gal g).gstate ∧
          ∀ q, galOf q = g → (t.seq q).cs.csver = 0 ∧ (t.seq q).run = .reset)) ∧
    (n < 16 → exec (.engineReset n) s = .fault .resetPulseTooShort ∧ exec (.debugReset n) s = .fault .resetPulseTooShort) ∧
    (16 ≤ n →
      (Does (.engineReset n) s fun t => t.eng.state = .calib ∧ bit t.eng.rstcause 1 = true ∧ t.recd.nv = s.recd.nv ∧
        t.recd.staging = s.recd.staging ∧ t.aon.lock = s.aon.lock ∧ t.aon.nonceCtr = s.aon.nonceCtr ∧ t.aon.att = false ∧
        ∀ q, galOf q ≠ 0 → t.seq q = {}) ∧
      (Does (.debugReset n) s fun t => t.aon.att = false ∧ t.aon.lock = s.aon.lock ∧ bit t.eng.rstcause 2 = true ∧
        t.eng.state = s.eng.state ∧ (∀ g, (t.gal g).gstate = (s.gal g).gstate) ∧ (∀ r : Fin 8, t.aon.xtsrc[r] = 0 ∧ t.aon.xtdst[r] = 0) ∧
        ∀ q, galOf q = 0 → (t.seq q).dbg = {} ∧ (t.seq q).dhalt = false)) ∧
    (s.pd.active = false → Does .plwAssert s fun t => t.pd.active = true ∧ t.pd.closed = false ∧ bit t.eng.hirq hirqPlw = true ∧
      (∀ g, g ∈ t.pd.restore ↔ s.serving g = true) ∧ ∀ q, s.present (galOf q) = true → (t.seq q).running = none ∧
        (t.seq q).prefetch = none ∧ (t.seq q).lock = none ∧ (t.seq q).prods = [] ∧ (t.seq q).pool = none ∧
        bit (t.seq q).exc.irqpend 6 = true ∧ (t.seq q).issues = false) ∧
    (s.lastLight = true → s.pd.wrDone = false → Does .wrwaitExpiry s fun t => t.pd.wrDone = true ∧ t.mem = s.mem ∧
      ∀ g, s.present g = true → ∀ x ∈ (t.gal g).md.tags, x.sump = true ∧ x.resv = 0) ∧
    (s.lightSpent = true → Does (.lastLightDone e) s fun t => t.pd.done = true ∧ t.pd.closed = true ∧ t.pd.elapsed = e ∧
      (∃ r ∈ t.recd.nv, r.code = 8 ∧ r.committed = true) ∧
      ∀ g, s.present g = true → t.pdOn (2 * g.val) = false ∧ bit t.pd.req (2 * g.val) = false) ∧
    (s.pd.active = true → s.pd.closed = true →
      let back (t : State) : Prop := t.pd.active = false ∧ t.pd.closed = false ∧ t.pd.back = none ∧
        t.eng.state = (if s.eng.state = .start ∨ s.eng.state = .service ∨ s.eng.state = .test then .recovery else s.eng.state)
      let good : Prop := tags.length = (s.gal g).installed.parts.length ∧ ∀ y ∈ tags, y.eq = true ∧ y.eqn = false ∧ y.late = false
      let again (t : State) : Prop := (good → (t.gal g).gstate = .serving ∧
          ∀ q, galOf q = g → (t.seq q).cs.csver = (s.gal g).installed.csver ∧ (t.seq q).run = .word0) ∧
        ((s.gal g).installed.parts ≠ [] → (∀ y ∈ tags.head?, y.eq = false) → (t.gal g).gstate = .squeezed)
      (s.pd.back = none →
        (s.pd.restore ≠ [] → Does (.powerReturn tags) s fun t => t.pd.active = true ∧ t.pd.awaited = s.pd.restore ∧
          t.pd.back = some tags ∧ t.eng.state = s.eng.state ∧ t.seqs = s.seqs ∧
          ∀ h ∈ s.pd.restore, bit t.pd.req (2 * h.val) = true ∧ t.pdOn (2 * h.val) = false) ∧
        (s.pd.restore = [] → s.eng.mpbusy = false → Does (.powerReturn tags) s back)) ∧
      (s.pd.back = some tags → s.eng.state ≠ .calib → s.present g = true → g ∈ s.pd.awaited → d.val = 2 * g.val →
        bit s.pd.req d.val = true → s.pdOn d.val = false →
        ((∃ h ∈ s.pd.awaited, h ≠ g) → Does (.pdAck d true) s fun t => t.pdOn d.val = true ∧ t.pd.active = true ∧
          t.pd.awaited = s.pd.awaited.filter (· ≠ g) ∧ t.eng.state = s.eng.state ∧ ∀ q, galOf q = g → (t.seq q).cs.csver = 0) ∧
        ((∀ h ∈ s.pd.awaited, h = g) → s.eng.mpbusy = true → Does (.pdAck d true) s fun t => t.pdOn d.val = true ∧
          t.pd.active = true ∧ t.pd.awaited = []) ∧
        ((∀ h ∈ s.pd.awaited, h = g) → s.eng.mpbusy = false → s.pd.restore = [g] → Does (.pdAck d true) s fun t =>
          t.pdOn d.val = true ∧ back t ∧ again t)) ∧
      (s.pd.back = some tags → s.pd.awaited = [] → s.eng.mpbusy = true → s.pd.restore = [g] → s.logicOn g = true →
        Does .mpWarmResetReturn s fun t => t.eng.mpbusy = false ∧ back t ∧ again t))

/-- The cold reset of R353, with the reset values of R121, R96 and the register tables: what the machine right after reset
holds, read through the register map; its memories are in canonical form and no command waits. -/
def Obligations.ResetValues : Prop :=
  let s := State.reset
  MemOk s ∧ s.pending = [] ∧ s.eng.state = .calib ∧
  (∀ q, let r := s.regs q
    r.st = 0x03C0 ∧ r.lsp = 0x40 ∧ r.ctxid = 0xFFFF ∧ r.pc = 0 ∧ r.spr = 0 ∧ r.mr = 0 ∧ r.fpc = 0 ∧ r.crc.cfg = 0x000000E0 ∧
    r.crc.poly = 0x1EDC6F41 ∧ r.crc.init = 0xFFFFFFFF ∧ r.crc.xorout = 0xFFFFFFFF ∧ (∀ n : BitVec 5, r.B n = 0) ∧
    (s.seq q).run = .reset ∧ (s.seq q).cs.csver = 0) ∧
  (∀ q, ∀ x ∈ [(QReg.ractl, (0x80024020 : Word)), (.wdctl, 0x00400040), (.irqlvl false, 0), (.irqlvl true, 0), (.mcfault, 0),
    (.csecc, 0), (.dbgctl, 0)], s.regValue (.seq q x.1) = x.2) ∧
  (∀ g, s.present g = true → ∀ x ∈ [(GReg.bankown false, (0x88888888 : Word)), (.bankown true, 0x88888888), (.bankret, 0xFFFF0000),
    (.scrst, 0), (.ctxbanks, 0), (.rtbase, 0), (.mdcfg, 0x000003E8), (.mderr, 0), (.tctl 0, 0), (.tcmp 7 false, 0xFFFFFFFF),
    (.tcmp 7 true, 0x0000FFFF)], s.regValue (.gal g x.1) = x.2) ∧
  ∀ x ∈ [(Reg.tickcfg, (0xC8003E80 : Word)), (.plant 0, 0x08345DC0), (.plant 1, 0x01F40000), (.plant 5, 0x06E005A0),
    (.plant 6, 0x00140000), (.plant 7, 0x00300018), (.plant 9, 0x007800B3), (.holdcfg, 0x0085B8D8), (.hirqen, 0), (.lutsel 63, 0xFFFFFFFF),
    (.evocfg 0, 0x00000100), (.sclkratio, 0x00773594), (.bbcfg, 0x40), (.dgcfg, 0x00C80100), (.pdcfg, 0x00000064), (.plwcfg, 0x000005DC),
    (.rstcause, 1), (.lntcfg, 0xFF), (.bpc 7, 0x0000FFFF)], s.regValue x.1 = x.2

/-! ### The whole machine -/

/-- Whatever the command: a step that answers a next state keeps both memories in their canonical form, takes exactly the
command at the front of the queue, and leaves the configuration as it is. -/
def Obligations.EveryStepKeepsItsMemories : Prop :=
  ∀ s t : State, MemOk s → step s = .next t → MemOk t ∧ t.pending = s.pending.tail ∧ t.variant = s.variant

end
end

