-- ==== Sys2Proof/Laws/Memory.lean ====
section
/-!
SUPPORT. The byte memory: read after write, and that every operation on it keeps the canonical form.
-/

namespace Sys2Proof.Machine

open Sys2Proof

/-! ### The canonical form -/

theorem Memory.wfFrom_cons (lo : Option Nat) (a : Nat) (v : Byte) (t : Memory) :
    Memory.wfFrom lo ((a, v) :: t) = true ↔
      (∀ l ∈ lo, l < a) ∧ v ≠ 0 ∧ Memory.wfFrom (some a) t = true := by
  cases lo <;> simp [Memory.wfFrom, and_assoc]

/-- A lower bound may be lowered. -/
theorem Memory.wfFrom_mono {lo : Option Nat} {b : Nat} {t : Memory} (h : Memory.wfFrom (some b) t = true)
    (hb : ∀ l ∈ lo, l ≤ b) : Memory.wfFrom lo t = true := by
  cases t with
  | nil => rfl
  | cons e t =>
    obtain ⟨a, v⟩ := e
    rw [Memory.wfFrom_cons] at h ⊢
    exact ⟨fun l hl => Nat.lt_of_le_of_lt (hb l hl) (h.1 b rfl), h.2⟩

theorem Memory.wfFrom_set {m : Memory} {lo : Option Nat} (h : Memory.wfFrom lo m = true) (a : Nat) (v : Byte)
    (ha : ∀ l ∈ lo, l < a) : Memory.wfFrom lo (m.set a v) = true := by
  induction m generalizing lo with
  | nil =>
    by_cases hv : v = 0
    · simp [Memory.set, hv, Memory.wfFrom]
    · rw [Memory.set, if_neg hv, Memory.wfFrom_cons]
      exact ⟨ha, hv, rfl⟩
  | cons e t ih =>
    obtain ⟨b, w⟩ := e
    have h' := (Memory.wfFrom_cons lo b w t).1 h
    by_cases h1 : a < b
    · rw [Memory.set, if_pos h1]
      by_cases hv : v = 0
      · rw [if_pos hv]; exact h
      · rw [if_neg hv, Memory.wfFrom_cons, Memory.wfFrom_cons]
        exact ⟨ha, hv, fun l hl => by cases hl; exact h1, h'.2⟩
    · by_cases h2 : a = b
      · subst h2
        rw [Memory.set, if_neg h1, if_pos rfl]
        by_cases hv : v = 0
        · rw [if_pos hv]
          exact Memory.wfFrom_mono h'.2.2 fun l hl => Nat.le_of_lt (h'.1 l hl)
        · rw [if_neg hv, Memory.wfFrom_cons]
          exact ⟨ha, hv, h'.2.2⟩
      · rw [Memory.set, if_neg h1, if_neg h2, Memory.wfFrom_cons]
        exact ⟨h'.1, h'.2.1, ih h'.2.2 fun l hl => by cases hl; omega⟩

/-- Writing a byte keeps the canonical form. -/
theorem Memory.wf_set {m : Memory} (h : m.wf = true) (a : Nat) (v : Byte) : (m.set a v).wf = true :=
  Memory.wfFrom_set h a v (by simp)

/-- Writing bytes keeps it. -/
theorem Memory.wf_writeBytes {m : Memory} (h : m.wf = true) (a : Nat) (bs : List Byte) : (m.writeBytes a bs).wf = true := by
  induction bs generalizing m a with
  | nil => exact h
  | cons b bs ih => exact ih (Memory.wf_set h a b) (a + 1)

theorem Memory.wf_writeLE {m : Memory} (h : m.wf = true) (a n x : Nat) : (m.writeLE a n x).wf = true :=
  Memory.wf_writeBytes h a _

/-- A sequencer's store into the context table keeps it. -/
theorem Memory.wf_ctxStore {m : Memory} (h : m.wf = true) (a : Nat) (bs : List Byte) : (m.ctxStore a bs).wf = true := by
  induction bs generalizing m a with
  | nil => exact h
  | cons b bs ih => exact ih (Memory.wf_set h a _) (a + 1)

theorem Memory.wfFrom_filter {m : Memory} {lo : Option Nat} (h : Memory.wfFrom lo m = true) (p : Nat × Byte → Bool) :
    Memory.wfFrom lo (m.filter p) = true := by
  induction m generalizing lo with
  | nil => rfl
  | cons e t ih =>
    obtain ⟨a, v⟩ := e
    have h' := (Memory.wfFrom_cons lo a v t).1 h
    by_cases hp : p (a, v) = true
    · rw [List.filter_cons_of_pos hp, Memory.wfFrom_cons]
      exact ⟨h'.1, h'.2.1, ih h'.2.2⟩
    · rw [List.filter_cons_of_neg hp]
      exact Memory.wfFrom_mono (ih h'.2.2) fun l hl => Nat.le_of_lt (h'.1 l hl)

/-- Dropping entries keeps it. -/
theorem Memory.wf_filter {m : Memory} (h : m.wf = true) (p : Nat × Byte → Bool) : Memory.wf (m.filter p) = true :=
  Memory.wfFrom_filter h p

/-! ### Reads after writes -/

theorem Memory.get_of_lt {m : Memory} {lo a : Nat} (h : Memory.wfFrom (some lo) m = true) (ha : a ≤ lo) : m.get a = 0 := by
  induction m generalizing lo with
  | nil => rfl
  | cons e t ih =>
    obtain ⟨b, w⟩ := e
    have h' := (Memory.wfFrom_cons (some lo) b w t).1 h
    have hlt : lo < b := h'.1 lo rfl
    rw [Memory.get, if_neg (by omega)]
    exact ih h'.2.2 (by omega)

theorem Memory.get_set_from {m : Memory} {lo : Option Nat} (h : Memory.wfFrom lo m = true) (a : Nat) (v : Byte) (x : Nat) :
    (m.set a v).get x = if x = a then v else m.get x := by
  induction m generalizing lo with
  | nil =>
    by_cases hv : v = 0
    · rw [Memory.set, if_pos hv, Memory.get, hv, ite_self]
    · rw [Memory.set, if_neg hv]; rfl
  | cons e t ih =>
    obtain ⟨b, w⟩ := e
    have h' := (Memory.wfFrom_cons lo b w t).1 h
    by_cases h1 : a < b
    · rw [Memory.set, if_pos h1]
      by_cases hv : v = 0
      · rw [if_pos hv]
        by_cases hx : x = a
        · subst hx
          rw [if_pos rfl, Memory.get, if_neg (by omega), hv]
          exact Memory.get_of_lt h'.2.2 (by omega)
        · rw [if_neg hx]
      · rw [if_neg hv, Memory.get]
    · by_cases h2 : a = b
      · subst h2
        rw [Memory.set, if_neg h1, if_pos rfl]
        by_cases hv : v = 0
        · rw [if_pos hv]
          by_cases hx : x = a
          · rw [if_pos hx, hx, hv]
            exact Memory.get_of_lt h'.2.2 (Nat.le_refl _)
          · rw [if_neg hx, Memory.get, if_neg hx]
        · rw [if_neg hv, Memory.get, Memory.get]
          by_cases hx : x = a
          · simp [hx]
          · simp [hx]
      · rw [Memory.set, if_neg h1, if_neg h2, Memory.get, Memory.get, ih h'.2.2]
        by_cases hx : x = b
        · rw [if_pos hx, if_pos hx, if_neg (by omega)]
        · rw [if_neg hx, if_neg hx]

/-- A read after a write gives the byte written there, and every other byte as before. -/
theorem Memory.get_set {m : Memory} (h : m.wf = true) (a : Nat) (v : Byte) (x : Nat) :
    (m.set a v).get x = if x = a then v else m.get x :=
  Memory.get_set_from h a v x

/-- Bytes outside a written range stay. -/
theorem Memory.get_writeBytes_outside {m : Memory} (h : m.wf = true) (a : Nat) (bs : List Byte) (x : Nat)
    (hx : x < a ∨ a + bs.length ≤ x) : (m.writeBytes a bs).get x = m.get x := by
  induction bs generalizing m a with
  | nil => rfl
  | cons b bs ih =>
    have hl : x < a ∨ a + (bs.length + 1) ≤ x := by simpa using hx
    rw [Memory.writeBytes, ih (Memory.wf_set h a b) (a + 1) (by omega), Memory.get_set h, if_neg (by omega)]

/-- Bytes inside it are those written. -/
theorem Memory.get_writeBytes_inside {m : Memory} (h : m.wf = true) (a : Nat) (bs : List Byte) (k : Nat)
    (hk : k < bs.length) : (m.writeBytes a bs).get (a + k) = bs[k] := by
  induction bs generalizing m a k with
  | nil => exact absurd hk (by simp)
  | cons b bs ih =>
    cases k with
    | zero =>
      rw [Memory.writeBytes, Memory.get_writeBytes_outside (Memory.wf_set h a b) _ _ _ (by omega), Memory.get_set h]
      simp
    | succ k =>
      have := ih (Memory.wf_set h a b) (a + 1) k (by simpa using hk)
      rw [Memory.writeBytes, show a + (k + 1) = a + 1 + k by omega, this]
      rfl

/-- Reading back what was written. -/
theorem Memory.readBytes_writeBytes {m : Memory} (h : m.wf = true) (a : Nat) (bs : List Byte) :
    (m.writeBytes a bs).readBytes a bs.length = bs := by
  suffices H : ∀ (m : Memory) (a : Nat) (l : List Byte), (∀ k (hk : k < l.length), m.get (a + k) = l[k]) →
      m.readBytes a l.length = l from H _ a bs fun k hk => Memory.get_writeBytes_inside h a bs k hk
  intro m a l
  induction l generalizing a with
  | nil => intro _; rfl
  | cons b l ih =>
    intro hk
    rw [List.length_cons, Memory.readBytes]
    congr 1
    · exact hk 0 (by simp)
    · refine ih (a + 1) fun k hk' => ?_
      have := hk (k + 1) (by simpa using hk')
      rw [show a + 1 + k = a + (k + 1) by omega]
      simpa using this

/-- Reset's memory lists nothing. -/
theorem memory_reset : State.reset.mem.wf = true := rfl

end Sys2Proof.Machine
end

