-- ==== Sys2Proof/Laws/State.lean ====
section
/-!
SUPPORT. One lemma for each field under each named update of the state, so that no proof unfolds a record update; and what
reading one sequencer or gallery gives after another is changed.
-/

namespace Sys2Proof.Machine

open Sys2Proof

/-! ### modSeq -/

@[simp] theorem State.modSeq_pending (s : State) (q : SeqId) (f : Seq → Seq) : (s.modSeq q f).pending = s.pending := rfl
@[simp] theorem State.modSeq_variant (s : State) (q : SeqId) (f : Seq → Seq) : (s.modSeq q f).variant = s.variant := rfl
@[simp] theorem State.modSeq_freeCtr (s : State) (q : SeqId) (f : Seq → Seq) : (s.modSeq q f).freeCtr = s.freeCtr := rfl
@[simp] theorem State.modSeq_mem (s : State) (q : SeqId) (f : Seq → Seq) : (s.modSeq q f).mem = s.mem := rfl
@[simp] theorem State.modSeq_ecc (s : State) (q : SeqId) (f : Seq → Seq) : (s.modSeq q f).ecc = s.ecc := rfl
@[simp] theorem State.modSeq_gals (s : State) (q : SeqId) (f : Seq → Seq) : (s.modSeq q f).gals = s.gals := rfl
@[simp] theorem State.modSeq_eng (s : State) (q : SeqId) (f : Seq → Seq) : (s.modSeq q f).eng = s.eng := rfl
@[simp] theorem State.modSeq_mb (s : State) (q : SeqId) (f : Seq → Seq) : (s.modSeq q f).mb = s.mb := rfl
@[simp] theorem State.modSeq_plant (s : State) (q : SeqId) (f : Seq → Seq) : (s.modSeq q f).plant = s.plant := rfl
@[simp] theorem State.modSeq_pow (s : State) (q : SeqId) (f : Seq → Seq) : (s.modSeq q f).pow = s.pow := rfl
@[simp] theorem State.modSeq_ledger (s : State) (q : SeqId) (f : Seq → Seq) : (s.modSeq q f).ledger = s.ledger := rfl
@[simp] theorem State.modSeq_ev (s : State) (q : SeqId) (f : Seq → Seq) : (s.modSeq q f).ev = s.ev := rfl
@[simp] theorem State.modSeq_recd (s : State) (q : SeqId) (f : Seq → Seq) : (s.modSeq q f).recd = s.recd := rfl
@[simp] theorem State.modSeq_trace (s : State) (q : SeqId) (f : Seq → Seq) : (s.modSeq q f).trace = s.trace := rfl
@[simp] theorem State.modSeq_work (s : State) (q : SeqId) (f : Seq → Seq) : (s.modSeq q f).work = s.work := rfl
@[simp] theorem State.modSeq_mp (s : State) (q : SeqId) (f : Seq → Seq) : (s.modSeq q f).mp = s.mp := rfl
@[simp] theorem State.modSeq_dg (s : State) (q : SeqId) (f : Seq → Seq) : (s.modSeq q f).dg = s.dg := rfl
@[simp] theorem State.modSeq_aon (s : State) (q : SeqId) (f : Seq → Seq) : (s.modSeq q f).aon = s.aon := rfl
@[simp] theorem State.modSeq_pd (s : State) (q : SeqId) (f : Seq → Seq) : (s.modSeq q f).pd = s.pd := rfl

/-! ### modGal -/

@[simp] theorem State.modGal_pending (s : State) (g : GalId) (f : Gal → Gal) : (s.modGal g f).pending = s.pending := rfl
@[simp] theorem State.modGal_variant (s : State) (g : GalId) (f : Gal → Gal) : (s.modGal g f).variant = s.variant := rfl
@[simp] theorem State.modGal_freeCtr (s : State) (g : GalId) (f : Gal → Gal) : (s.modGal g f).freeCtr = s.freeCtr := rfl
@[simp] theorem State.modGal_mem (s : State) (g : GalId) (f : Gal → Gal) : (s.modGal g f).mem = s.mem := rfl
@[simp] theorem State.modGal_ecc (s : State) (g : GalId) (f : Gal → Gal) : (s.modGal g f).ecc = s.ecc := rfl
@[simp] theorem State.modGal_seqs (s : State) (g : GalId) (f : Gal → Gal) : (s.modGal g f).seqs = s.seqs := rfl
@[simp] theorem State.modGal_eng (s : State) (g : GalId) (f : Gal → Gal) : (s.modGal g f).eng = s.eng := rfl
@[simp] theorem State.modGal_mb (s : State) (g : GalId) (f : Gal → Gal) : (s.modGal g f).mb = s.mb := rfl
@[simp] theorem State.modGal_plant (s : State) (g : GalId) (f : Gal → Gal) : (s.modGal g f).plant = s.plant := rfl
@[simp] theorem State.modGal_pow (s : State) (g : GalId) (f : Gal → Gal) : (s.modGal g f).pow = s.pow := rfl
@[simp] theorem State.modGal_ledger (s : State) (g : GalId) (f : Gal → Gal) : (s.modGal g f).ledger = s.ledger := rfl
@[simp] theorem State.modGal_ev (s : State) (g : GalId) (f : Gal → Gal) : (s.modGal g f).ev = s.ev := rfl
@[simp] theorem State.modGal_recd (s : State) (g : GalId) (f : Gal → Gal) : (s.modGal g f).recd = s.recd := rfl
@[simp] theorem State.modGal_trace (s : State) (g : GalId) (f : Gal → Gal) : (s.modGal g f).trace = s.trace := rfl
@[simp] theorem State.modGal_work (s : State) (g : GalId) (f : Gal → Gal) : (s.modGal g f).work = s.work := rfl
@[simp] theorem State.modGal_mp (s : State) (g : GalId) (f : Gal → Gal) : (s.modGal g f).mp = s.mp := rfl
@[simp] theorem State.modGal_dg (s : State) (g : GalId) (f : Gal → Gal) : (s.modGal g f).dg = s.dg := rfl
@[simp] theorem State.modGal_aon (s : State) (g : GalId) (f : Gal → Gal) : (s.modGal g f).aon = s.aon := rfl
@[simp] theorem State.modGal_pd (s : State) (g : GalId) (f : Gal → Gal) : (s.modGal g f).pd = s.pd := rfl

/-! ### modRegs -/

@[simp] theorem State.modRegs_pending (s : State) (q : SeqId) (f : Regs → Regs) : (s.modRegs q f).pending = s.pending := rfl
@[simp] theorem State.modRegs_variant (s : State) (q : SeqId) (f : Regs → Regs) : (s.modRegs q f).variant = s.variant := rfl
@[simp] theorem State.modRegs_freeCtr (s : State) (q : SeqId) (f : Regs → Regs) : (s.modRegs q f).freeCtr = s.freeCtr := rfl
@[simp] theorem State.modRegs_mem (s : State) (q : SeqId) (f : Regs → Regs) : (s.modRegs q f).mem = s.mem := rfl
@[simp] theorem State.modRegs_ecc (s : State) (q : SeqId) (f : Regs → Regs) : (s.modRegs q f).ecc = s.ecc := rfl
@[simp] theorem State.modRegs_gals (s : State) (q : SeqId) (f : Regs → Regs) : (s.modRegs q f).gals = s.gals := rfl
@[simp] theorem State.modRegs_eng (s : State) (q : SeqId) (f : Regs → Regs) : (s.modRegs q f).eng = s.eng := rfl
@[simp] theorem State.modRegs_mb (s : State) (q : SeqId) (f : Regs → Regs) : (s.modRegs q f).mb = s.mb := rfl
@[simp] theorem State.modRegs_plant (s : State) (q : SeqId) (f : Regs → Regs) : (s.modRegs q f).plant = s.plant := rfl
@[simp] theorem State.modRegs_pow (s : State) (q : SeqId) (f : Regs → Regs) : (s.modRegs q f).pow = s.pow := rfl
@[simp] theorem State.modRegs_ledger (s : State) (q : SeqId) (f : Regs → Regs) : (s.modRegs q f).ledger = s.ledger := rfl
@[simp] theorem State.modRegs_ev (s : State) (q : SeqId) (f : Regs → Regs) : (s.modRegs q f).ev = s.ev := rfl
@[simp] theorem State.modRegs_recd (s : State) (q : SeqId) (f : Regs → Regs) : (s.modRegs q f).recd = s.recd := rfl
@[simp] theorem State.modRegs_trace (s : State) (q : SeqId) (f : Regs → Regs) : (s.modRegs q f).trace = s.trace := rfl
@[simp] theorem State.modRegs_work (s : State) (q : SeqId) (f : Regs → Regs) : (s.modRegs q f).work = s.work := rfl
@[simp] theorem State.modRegs_mp (s : State) (q : SeqId) (f : Regs → Regs) : (s.modRegs q f).mp = s.mp := rfl
@[simp] theorem State.modRegs_dg (s : State) (q : SeqId) (f : Regs → Regs) : (s.modRegs q f).dg = s.dg := rfl
@[simp] theorem State.modRegs_aon (s : State) (q : SeqId) (f : Regs → Regs) : (s.modRegs q f).aon = s.aon := rfl
@[simp] theorem State.modRegs_pd (s : State) (q : SeqId) (f : Regs → Regs) : (s.modRegs q f).pd = s.pd := rfl

/-! ### modMd -/

@[simp] theorem State.modMd_pending (s : State) (g : GalId) (f : Media → Media) : (s.modMd g f).pending = s.pending := rfl
@[simp] theorem State.modMd_variant (s : State) (g : GalId) (f : Media → Media) : (s.modMd g f).variant = s.variant := rfl
@[simp] theorem State.modMd_freeCtr (s : State) (g : GalId) (f : Media → Media) : (s.modMd g f).freeCtr = s.freeCtr := rfl
@[simp] theorem State.modMd_mem (s : State) (g : GalId) (f : Media → Media) : (s.modMd g f).mem = s.mem := rfl
@[simp] theorem State.modMd_ecc (s : State) (g : GalId) (f : Media → Media) : (s.modMd g f).ecc = s.ecc := rfl
@[simp] theorem State.modMd_seqs (s : State) (g : GalId) (f : Media → Media) : (s.modMd g f).seqs = s.seqs := rfl
@[simp] theorem State.modMd_eng (s : State) (g : GalId) (f : Media → Media) : (s.modMd g f).eng = s.eng := rfl
@[simp] theorem State.modMd_mb (s : State) (g : GalId) (f : Media → Media) : (s.modMd g f).mb = s.mb := rfl
@[simp] theorem State.modMd_plant (s : State) (g : GalId) (f : Media → Media) : (s.modMd g f).plant = s.plant := rfl
@[simp] theorem State.modMd_pow (s : State) (g : GalId) (f : Media → Media) : (s.modMd g f).pow = s.pow := rfl
@[simp] theorem State.modMd_ledger (s : State) (g : GalId) (f : Media → Media) : (s.modMd g f).ledger = s.ledger := rfl
@[simp] theorem State.modMd_ev (s : State) (g : GalId) (f : Media → Media) : (s.modMd g f).ev = s.ev := rfl
@[simp] theorem State.modMd_recd (s : State) (g : GalId) (f : Media → Media) : (s.modMd g f).recd = s.recd := rfl
@[simp] theorem State.modMd_trace (s : State) (g : GalId) (f : Media → Media) : (s.modMd g f).trace = s.trace := rfl
@[simp] theorem State.modMd_work (s : State) (g : GalId) (f : Media → Media) : (s.modMd g f).work = s.work := rfl
@[simp] theorem State.modMd_mp (s : State) (g : GalId) (f : Media → Media) : (s.modMd g f).mp = s.mp := rfl
@[simp] theorem State.modMd_dg (s : State) (g : GalId) (f : Media → Media) : (s.modMd g f).dg = s.dg := rfl
@[simp] theorem State.modMd_aon (s : State) (g : GalId) (f : Media → Media) : (s.modMd g f).aon = s.aon := rfl
@[simp] theorem State.modMd_pd (s : State) (g : GalId) (f : Media → Media) : (s.modMd g f).pd = s.pd := rfl

/-! ### hirq -/

@[simp] theorem State.hirq_pending (s : State) (i : Nat) : (s.hirq i).pending = s.pending := rfl
@[simp] theorem State.hirq_variant (s : State) (i : Nat) : (s.hirq i).variant = s.variant := rfl
@[simp] theorem State.hirq_freeCtr (s : State) (i : Nat) : (s.hirq i).freeCtr = s.freeCtr := rfl
@[simp] theorem State.hirq_mem (s : State) (i : Nat) : (s.hirq i).mem = s.mem := rfl
@[simp] theorem State.hirq_ecc (s : State) (i : Nat) : (s.hirq i).ecc = s.ecc := rfl
@[simp] theorem State.hirq_seqs (s : State) (i : Nat) : (s.hirq i).seqs = s.seqs := rfl
@[simp] theorem State.hirq_gals (s : State) (i : Nat) : (s.hirq i).gals = s.gals := rfl
@[simp] theorem State.hirq_mb (s : State) (i : Nat) : (s.hirq i).mb = s.mb := rfl
@[simp] theorem State.hirq_plant (s : State) (i : Nat) : (s.hirq i).plant = s.plant := rfl
@[simp] theorem State.hirq_pow (s : State) (i : Nat) : (s.hirq i).pow = s.pow := rfl
@[simp] theorem State.hirq_ledger (s : State) (i : Nat) : (s.hirq i).ledger = s.ledger := rfl
@[simp] theorem State.hirq_ev (s : State) (i : Nat) : (s.hirq i).ev = s.ev := rfl
@[simp] theorem State.hirq_recd (s : State) (i : Nat) : (s.hirq i).recd = s.recd := rfl
@[simp] theorem State.hirq_trace (s : State) (i : Nat) : (s.hirq i).trace = s.trace := rfl
@[simp] theorem State.hirq_work (s : State) (i : Nat) : (s.hirq i).work = s.work := rfl
@[simp] theorem State.hirq_mp (s : State) (i : Nat) : (s.hirq i).mp = s.mp := rfl
@[simp] theorem State.hirq_dg (s : State) (i : Nat) : (s.hirq i).dg = s.dg := rfl
@[simp] theorem State.hirq_aon (s : State) (i : Nat) : (s.hirq i).aon = s.aon := rfl
@[simp] theorem State.hirq_pd (s : State) (i : Nat) : (s.hirq i).pd = s.pd := rfl

/-! ### led -/

@[simp] theorem State.led_pending (s : State) (g : GalId) (i : Fin 26) (n : Nat) : (s.led g i n).pending = s.pending := rfl
@[simp] theorem State.led_variant (s : State) (g : GalId) (i : Fin 26) (n : Nat) : (s.led g i n).variant = s.variant := rfl
@[simp] theorem State.led_freeCtr (s : State) (g : GalId) (i : Fin 26) (n : Nat) : (s.led g i n).freeCtr = s.freeCtr := rfl
@[simp] theorem State.led_mem (s : State) (g : GalId) (i : Fin 26) (n : Nat) : (s.led g i n).mem = s.mem := rfl
@[simp] theorem State.led_ecc (s : State) (g : GalId) (i : Fin 26) (n : Nat) : (s.led g i n).ecc = s.ecc := rfl
@[simp] theorem State.led_seqs (s : State) (g : GalId) (i : Fin 26) (n : Nat) : (s.led g i n).seqs = s.seqs := rfl
@[simp] theorem State.led_eng (s : State) (g : GalId) (i : Fin 26) (n : Nat) : (s.led g i n).eng = s.eng := rfl
@[simp] theorem State.led_mb (s : State) (g : GalId) (i : Fin 26) (n : Nat) : (s.led g i n).mb = s.mb := rfl
@[simp] theorem State.led_plant (s : State) (g : GalId) (i : Fin 26) (n : Nat) : (s.led g i n).plant = s.plant := rfl
@[simp] theorem State.led_pow (s : State) (g : GalId) (i : Fin 26) (n : Nat) : (s.led g i n).pow = s.pow := rfl
@[simp] theorem State.led_ledger (s : State) (g : GalId) (i : Fin 26) (n : Nat) : (s.led g i n).ledger = s.ledger := rfl
@[simp] theorem State.led_ev (s : State) (g : GalId) (i : Fin 26) (n : Nat) : (s.led g i n).ev = s.ev := rfl
@[simp] theorem State.led_recd (s : State) (g : GalId) (i : Fin 26) (n : Nat) : (s.led g i n).recd = s.recd := rfl
@[simp] theorem State.led_trace (s : State) (g : GalId) (i : Fin 26) (n : Nat) : (s.led g i n).trace = s.trace := rfl
@[simp] theorem State.led_work (s : State) (g : GalId) (i : Fin 26) (n : Nat) : (s.led g i n).work = s.work := rfl
@[simp] theorem State.led_mp (s : State) (g : GalId) (i : Fin 26) (n : Nat) : (s.led g i n).mp = s.mp := rfl
@[simp] theorem State.led_dg (s : State) (g : GalId) (i : Fin 26) (n : Nat) : (s.led g i n).dg = s.dg := rfl
@[simp] theorem State.led_aon (s : State) (g : GalId) (i : Fin 26) (n : Nat) : (s.led g i n).aon = s.aon := rfl
@[simp] theorem State.led_pd (s : State) (g : GalId) (i : Fin 26) (n : Nat) : (s.led g i n).pd = s.pd := rfl

/-! ### irq -/

@[simp] theorem State.irq_pending (s : State) (q : SeqId) (i : Nat) : (s.irq q i).pending = s.pending := rfl
@[simp] theorem State.irq_variant (s : State) (q : SeqId) (i : Nat) : (s.irq q i).variant = s.variant := rfl
@[simp] theorem State.irq_freeCtr (s : State) (q : SeqId) (i : Nat) : (s.irq q i).freeCtr = s.freeCtr := rfl
@[simp] theorem State.irq_mem (s : State) (q : SeqId) (i : Nat) : (s.irq q i).mem = s.mem := rfl
@[simp] theorem State.irq_ecc (s : State) (q : SeqId) (i : Nat) : (s.irq q i).ecc = s.ecc := rfl
@[simp] theorem State.irq_gals (s : State) (q : SeqId) (i : Nat) : (s.irq q i).gals = s.gals := rfl
@[simp] theorem State.irq_eng (s : State) (q : SeqId) (i : Nat) : (s.irq q i).eng = s.eng := rfl
@[simp] theorem State.irq_mb (s : State) (q : SeqId) (i : Nat) : (s.irq q i).mb = s.mb := rfl
@[simp] theorem State.irq_plant (s : State) (q : SeqId) (i : Nat) : (s.irq q i).plant = s.plant := rfl
@[simp] theorem State.irq_pow (s : State) (q : SeqId) (i : Nat) : (s.irq q i).pow = s.pow := rfl
@[simp] theorem State.irq_ledger (s : State) (q : SeqId) (i : Nat) : (s.irq q i).ledger = s.ledger := rfl
@[simp] theorem State.irq_ev (s : State) (q : SeqId) (i : Nat) : (s.irq q i).ev = s.ev := rfl
@[simp] theorem State.irq_recd (s : State) (q : SeqId) (i : Nat) : (s.irq q i).recd = s.recd := rfl
@[simp] theorem State.irq_trace (s : State) (q : SeqId) (i : Nat) : (s.irq q i).trace = s.trace := rfl
@[simp] theorem State.irq_work (s : State) (q : SeqId) (i : Nat) : (s.irq q i).work = s.work := rfl
@[simp] theorem State.irq_mp (s : State) (q : SeqId) (i : Nat) : (s.irq q i).mp = s.mp := rfl
@[simp] theorem State.irq_dg (s : State) (q : SeqId) (i : Nat) : (s.irq q i).dg = s.dg := rfl
@[simp] theorem State.irq_aon (s : State) (q : SeqId) (i : Nat) : (s.irq q i).aon = s.aon := rfl
@[simp] theorem State.irq_pd (s : State) (q : SeqId) (i : Nat) : (s.irq q i).pd = s.pd := rfl

/-! ### store -/

/-- What every step of a loop leaves, the loop leaves. -/
theorem State.each_field {α β : Type} (p : State → β) {f : State → α → State} (hf : ∀ s x, p (f s x) = p s) (l : List α) :
    ∀ s : State, p (s.each l f) = p s := by
  induction l with
  | nil => intro s; rfl
  | cons x xs ih => intro s; exact (ih (f s x)).trans (hf s x)

/-- A read of codewords changes check bits and galleries, and nothing else. -/
theorem State.eccRead_field {β : Type} (p : State → β) (he : ∀ s e, p { s with ecc := e } = p s)
    (hg : ∀ s g f, p (s.modGal g f) = p s) (s : State) (g : GalId) (a n : Nat) : p (s.eccRead g a n) = p s := by
  refine State.each_field p (fun s c => ?_) _ s
  repeat' split
  all_goals first | rfl | simp only [hg, he]

/-- A store changes memory, check bits and galleries, and nothing else. -/
theorem State.store_field {β : Type} (p : State → β) (hm : ∀ s m e, p { s with mem := m, ecc := e } = p s)
    (hg : ∀ s g f, p (s.modGal g f) = p s) (s : State) (a : Nat) (bs : List Byte) : p (s.store a bs) = p s := by
  have he : ∀ (s : State) (e : Ecc), p { s with ecc := e } = p s := fun s e => hm s s.mem e
  have h1 : p ((s.awaken a bs.length).mergeEcc a bs.length) = p (s.awaken a bs.length) := by
    unfold State.mergeEcc
    split
    · exact State.each_field p (fun s c => State.eccRead_field p he hg s _ _ _) _ _
    · rfl
  have h2 : p (s.awaken a bs.length) = p s := by
    unfold State.awaken
    split
    · exact hg ..
    · rfl
  exact ((hm _ _ _).trans h1).trans h2

theorem State.eccRead_mem (s : State) (g : GalId) (a n : Nat) : (s.eccRead g a n).mem = s.mem :=
  State.eccRead_field State.mem (fun _ _ => rfl) (fun _ _ _ => rfl) s g a n

@[simp] theorem State.store_mem (s : State) (a : Nat) (bs : List Byte) : (s.store a bs).mem = s.mem.writeBytes a bs := by
  have h1 : ((s.awaken a bs.length).mergeEcc a bs.length).mem = s.mem := by
    unfold State.mergeEcc State.awaken
    split
    · refine (State.each_field State.mem (fun s c => State.eccRead_mem s _ _ _) _ _).trans ?_
      split <;> rfl
    · split <;> rfl
  exact congrArg (fun m : Memory => m.writeBytes a bs) h1

@[simp] theorem State.store_pending (s : State) (a : Nat) (bs : List Byte) : (s.store a bs).pending = s.pending :=
  State.store_field State.pending (fun _ _ _ => rfl) (fun _ _ _ => rfl) s a bs
@[simp] theorem State.store_variant (s : State) (a : Nat) (bs : List Byte) : (s.store a bs).variant = s.variant :=
  State.store_field State.variant (fun _ _ _ => rfl) (fun _ _ _ => rfl) s a bs
@[simp] theorem State.store_freeCtr (s : State) (a : Nat) (bs : List Byte) : (s.store a bs).freeCtr = s.freeCtr :=
  State.store_field State.freeCtr (fun _ _ _ => rfl) (fun _ _ _ => rfl) s a bs
@[simp] theorem State.store_seqs (s : State) (a : Nat) (bs : List Byte) : (s.store a bs).seqs = s.seqs :=
  State.store_field State.seqs (fun _ _ _ => rfl) (fun _ _ _ => rfl) s a bs
@[simp] theorem State.store_eng (s : State) (a : Nat) (bs : List Byte) : (s.store a bs).eng = s.eng :=
  State.store_field State.eng (fun _ _ _ => rfl) (fun _ _ _ => rfl) s a bs
@[simp] theorem State.store_mb (s : State) (a : Nat) (bs : List Byte) : (s.store a bs).mb = s.mb :=
  State.store_field State.mb (fun _ _ _ => rfl) (fun _ _ _ => rfl) s a bs
@[simp] theorem State.store_plant (s : State) (a : Nat) (bs : List Byte) : (s.store a bs).plant = s.plant :=
  State.store_field State.plant (fun _ _ _ => rfl) (fun _ _ _ => rfl) s a bs
@[simp] theorem State.store_pow (s : State) (a : Nat) (bs : List Byte) : (s.store a bs).pow = s.pow :=
  State.store_field State.pow (fun _ _ _ => rfl) (fun _ _ _ => rfl) s a bs
@[simp] theorem State.store_ledger (s : State) (a : Nat) (bs : List Byte) : (s.store a bs).ledger = s.ledger :=
  State.store_field State.ledger (fun _ _ _ => rfl) (fun _ _ _ => rfl) s a bs
@[simp] theorem State.store_ev (s : State) (a : Nat) (bs : List Byte) : (s.store a bs).ev = s.ev :=
  State.store_field State.ev (fun _ _ _ => rfl) (fun _ _ _ => rfl) s a bs
@[simp] theorem State.store_recd (s : State) (a : Nat) (bs : List Byte) : (s.store a bs).recd = s.recd :=
  State.store_field State.recd (fun _ _ _ => rfl) (fun _ _ _ => rfl) s a bs
@[simp] theorem State.store_trace (s : State) (a : Nat) (bs : List Byte) : (s.store a bs).trace = s.trace :=
  State.store_field State.trace (fun _ _ _ => rfl) (fun _ _ _ => rfl) s a bs
@[simp] theorem State.store_work (s : State) (a : Nat) (bs : List Byte) : (s.store a bs).work = s.work :=
  State.store_field State.work (fun _ _ _ => rfl) (fun _ _ _ => rfl) s a bs
@[simp] theorem State.store_mp (s : State) (a : Nat) (bs : List Byte) : (s.store a bs).mp = s.mp :=
  State.store_field State.mp (fun _ _ _ => rfl) (fun _ _ _ => rfl) s a bs
@[simp] theorem State.store_dg (s : State) (a : Nat) (bs : List Byte) : (s.store a bs).dg = s.dg :=
  State.store_field State.dg (fun _ _ _ => rfl) (fun _ _ _ => rfl) s a bs
@[simp] theorem State.store_aon (s : State) (a : Nat) (bs : List Byte) : (s.store a bs).aon = s.aon :=
  State.store_field State.aon (fun _ _ _ => rfl) (fun _ _ _ => rfl) s a bs
@[simp] theorem State.store_pd (s : State) (a : Nat) (bs : List Byte) : (s.store a bs).pd = s.pd :=
  State.store_field State.pd (fun _ _ _ => rfl) (fun _ _ _ => rfl) s a bs

/-! ### setCtxField -/

@[simp] theorem State.setCtxField_pending (s : State) (c : Half) (off n v : Nat) : (s.setCtxField c off n v).pending = s.pending := rfl
@[simp] theorem State.setCtxField_variant (s : State) (c : Half) (off n v : Nat) : (s.setCtxField c off n v).variant = s.variant := rfl
@[simp] theorem State.setCtxField_freeCtr (s : State) (c : Half) (off n v : Nat) : (s.setCtxField c off n v).freeCtr = s.freeCtr := rfl
@[simp] theorem State.setCtxField_ecc (s : State) (c : Half) (off n v : Nat) : (s.setCtxField c off n v).ecc = s.ecc := rfl
@[simp] theorem State.setCtxField_seqs (s : State) (c : Half) (off n v : Nat) : (s.setCtxField c off n v).seqs = s.seqs := rfl
@[simp] theorem State.setCtxField_gals (s : State) (c : Half) (off n v : Nat) : (s.setCtxField c off n v).gals = s.gals := rfl
@[simp] theorem State.setCtxField_eng (s : State) (c : Half) (off n v : Nat) : (s.setCtxField c off n v).eng = s.eng := rfl
@[simp] theorem State.setCtxField_mb (s : State) (c : Half) (off n v : Nat) : (s.setCtxField c off n v).mb = s.mb := rfl
@[simp] theorem State.setCtxField_plant (s : State) (c : Half) (off n v : Nat) : (s.setCtxField c off n v).plant = s.plant := rfl
@[simp] theorem State.setCtxField_pow (s : State) (c : Half) (off n v : Nat) : (s.setCtxField c off n v).pow = s.pow := rfl
@[simp] theorem State.setCtxField_ledger (s : State) (c : Half) (off n v : Nat) : (s.setCtxField c off n v).ledger = s.ledger := rfl
@[simp] theorem State.setCtxField_ev (s : State) (c : Half) (off n v : Nat) : (s.setCtxField c off n v).ev = s.ev := rfl
@[simp] theorem State.setCtxField_recd (s : State) (c : Half) (off n v : Nat) : (s.setCtxField c off n v).recd = s.recd := rfl
@[simp] theorem State.setCtxField_trace (s : State) (c : Half) (off n v : Nat) : (s.setCtxField c off n v).trace = s.trace := rfl
@[simp] theorem State.setCtxField_work (s : State) (c : Half) (off n v : Nat) : (s.setCtxField c off n v).work = s.work := rfl
@[simp] theorem State.setCtxField_mp (s : State) (c : Half) (off n v : Nat) : (s.setCtxField c off n v).mp = s.mp := rfl
@[simp] theorem State.setCtxField_dg (s : State) (c : Half) (off n v : Nat) : (s.setCtxField c off n v).dg = s.dg := rfl
@[simp] theorem State.setCtxField_aon (s : State) (c : Half) (off n v : Nat) : (s.setCtxField c off n v).aon = s.aon := rfl
@[simp] theorem State.setCtxField_pd (s : State) (c : Half) (off n v : Nat) : (s.setCtxField c off n v).pd = s.pd := rfl

/-! ### fresh -/

@[simp] theorem State.fresh_pending (s : State) : (s.fresh).pending = s.pending := rfl
@[simp] theorem State.fresh_variant (s : State) : (s.fresh).variant = s.variant := rfl
@[simp] theorem State.fresh_mem (s : State) : (s.fresh).mem = s.mem := rfl
@[simp] theorem State.fresh_ecc (s : State) : (s.fresh).ecc = s.ecc := rfl
@[simp] theorem State.fresh_seqs (s : State) : (s.fresh).seqs = s.seqs := rfl
@[simp] theorem State.fresh_gals (s : State) : (s.fresh).gals = s.gals := rfl
@[simp] theorem State.fresh_eng (s : State) : (s.fresh).eng = s.eng := rfl
@[simp] theorem State.fresh_mb (s : State) : (s.fresh).mb = s.mb := rfl
@[simp] theorem State.fresh_plant (s : State) : (s.fresh).plant = s.plant := rfl
@[simp] theorem State.fresh_pow (s : State) : (s.fresh).pow = s.pow := rfl
@[simp] theorem State.fresh_ledger (s : State) : (s.fresh).ledger = s.ledger := rfl
@[simp] theorem State.fresh_ev (s : State) : (s.fresh).ev = s.ev := rfl
@[simp] theorem State.fresh_recd (s : State) : (s.fresh).recd = s.recd := rfl
@[simp] theorem State.fresh_trace (s : State) : (s.fresh).trace = s.trace := rfl
@[simp] theorem State.fresh_work (s : State) : (s.fresh).work = s.work := rfl
@[simp] theorem State.fresh_mp (s : State) : (s.fresh).mp = s.mp := rfl
@[simp] theorem State.fresh_dg (s : State) : (s.fresh).dg = s.dg := rfl
@[simp] theorem State.fresh_aon (s : State) : (s.fresh).aon = s.aon := rfl
@[simp] theorem State.fresh_pd (s : State) : (s.fresh).pd = s.pd := rfl

/-! ### Reading a part after a change -/

@[simp] theorem State.seq_modSeq (s : State) (q : SeqId) (f : Seq → Seq) : (s.modSeq q f).seq q = f (s.seq q) := by
  simp [State.seq, State.modSeq]

theorem State.seq_modSeq_ne (s : State) {p q : SeqId} (f : Seq → Seq) (h : p ≠ q) : (s.modSeq q f).seq p = s.seq p := by
  have h' : q.val ≠ p.val := fun e => h (Fin.ext e.symm)
  simp [State.seq, State.modSeq, h']

@[simp] theorem State.gal_modGal (s : State) (g : GalId) (f : Gal → Gal) : (s.modGal g f).gal g = f (s.gal g) := by
  simp [State.gal, State.modGal]

theorem State.gal_modGal_ne (s : State) {h g : GalId} (f : Gal → Gal) (ne : h ≠ g) : (s.modGal g f).gal h = s.gal h := by
  have h' : g.val ≠ h.val := fun e => ne (Fin.ext e.symm)
  simp [State.gal, State.modGal, h']

@[simp] theorem State.gal_modSeq (s : State) (q : SeqId) (f : Seq → Seq) (g : GalId) : (s.modSeq q f).gal g = s.gal g := rfl
@[simp] theorem State.seq_modGal (s : State) (g : GalId) (f : Gal → Gal) (q : SeqId) : (s.modGal g f).seq q = s.seq q := rfl

@[simp] theorem State.regs_modRegs (s : State) (q : SeqId) (f : Regs → Regs) : (s.modRegs q f).regs q = f (s.regs q) := by
  simp [State.regs, State.modRegs]

theorem State.regs_modRegs_ne (s : State) {p q : SeqId} (f : Regs → Regs) (h : p ≠ q) :
    (s.modRegs q f).regs p = s.regs p := by
  simp [State.regs, State.modRegs, State.seq_modSeq_ne s _ h]

/-- Two changes of one sequencer are one change. -/
@[simp] theorem State.modSeq_modSeq (s : State) (q : SeqId) (f h : Seq → Seq) :
    (s.modSeq q f).modSeq q h = s.modSeq q fun x => h (f x) := by
  simp [State.modSeq, State.seq]

@[simp] theorem State.modGal_modGal (s : State) (g : GalId) (f h : Gal → Gal) :
    (s.modGal g f).modGal g h = s.modGal g fun x => h (f x) := by
  simp [State.modGal, State.gal]

/-- A change that leaves a sequencer as it is. -/
@[simp] theorem State.modSeq_id (s : State) (q : SeqId) : (s.modSeq q fun x => x) = s := by
  simp [State.modSeq, State.seq]

end Sys2Proof.Machine
end

