-- ==== Sys2Proof/Laws/Run.lean ====
section
/-!
SUPPORT. What the shared operations around an instruction's body do: the fetch, the dispatch and the retirement, said once
for every instruction.
-/

namespace Sys2Proof

open Sys2Proof.Machine

/-! ### Only one sequencer or gallery -/

@[simp] theorem OnlySeq.rfl' (q : SeqId) (s : State) : OnlySeq q s s := ⟨rfl, fun _ _ => rfl⟩

theorem OnlySeq.modSeq (q : SeqId) (s : State) (f : Seq → Seq) : OnlySeq q s (s.modSeq q f) :=
  ⟨rfl, fun _ h => State.seq_modSeq_ne s (f := f) h⟩

theorem OnlyGal.modGal (g : GalId) (s : State) (f : Gal → Gal) : OnlyGal g s (s.modGal g f) :=
  ⟨rfl, fun _ h => State.gal_modGal_ne s (f := f) h⟩

/-! ### The words of a routine -/

@[simp] theorem State.routine_pending (s : State) (q : SeqId) (w : Words) : (s.routine q w).pending = s.pending := rfl
@[simp] theorem State.routine_variant (s : State) (q : SeqId) (w : Words) : (s.routine q w).variant = s.variant := rfl
@[simp] theorem State.routine_mem (s : State) (q : SeqId) (w : Words) : (s.routine q w).mem = s.mem := rfl
@[simp] theorem State.routine_ecc (s : State) (q : SeqId) (w : Words) : (s.routine q w).ecc = s.ecc := rfl
@[simp] theorem State.routine_eng (s : State) (q : SeqId) (w : Words) : (s.routine q w).eng = s.eng := rfl
@[simp] theorem State.routine_mb (s : State) (q : SeqId) (w : Words) : (s.routine q w).mb = s.mb := rfl
@[simp] theorem State.routine_plant (s : State) (q : SeqId) (w : Words) : (s.routine q w).plant = s.plant := rfl
@[simp] theorem State.routine_ledger (s : State) (q : SeqId) (w : Words) : (s.routine q w).ledger = s.ledger := rfl
@[simp] theorem State.routine_ev (s : State) (q : SeqId) (w : Words) : (s.routine q w).ev = s.ev := rfl
@[simp] theorem State.routine_recd (s : State) (q : SeqId) (w : Words) : (s.routine q w).recd = s.recd := rfl
@[simp] theorem State.routine_trace (s : State) (q : SeqId) (w : Words) : (s.routine q w).trace = s.trace := rfl
@[simp] theorem State.routine_work (s : State) (q : SeqId) (w : Words) : (s.routine q w).work = s.work := rfl
@[simp] theorem State.routine_mp (s : State) (q : SeqId) (w : Words) : (s.routine q w).mp = s.mp := rfl
@[simp] theorem State.routine_dg (s : State) (q : SeqId) (w : Words) : (s.routine q w).dg = s.dg := rfl
@[simp] theorem State.routine_aon (s : State) (q : SeqId) (w : Words) : (s.routine q w).aon = s.aon := rfl
@[simp] theorem State.routine_pd (s : State) (q : SeqId) (w : Words) : (s.routine q w).pd = s.pd := rfl

/-- A routine changes of its sequencer only the budgets. -/
theorem State.routine_seq (s : State) (q : SeqId) (w : Words) :
    (s.routine q w).seq q = { s.seq q with bud := (s.spent q (w.classes s.freeCtr) (Config.freeHold s.freeCtr)).1 } := by
  show (s.modSeq q fun x => { x with bud := (s.spent q (w.classes s.freeCtr) (Config.freeHold s.freeCtr)).1 }).seq q = _
  rw [State.seq_modSeq]

@[simp] theorem State.routine_seq_ne (s : State) {p q : SeqId} (w : Words) (h : p ≠ q) :
    (s.routine q w).seq p = s.seq p := by
  show (s.modSeq q fun x => { x with bud := (s.spent q (w.classes s.freeCtr) (Config.freeHold s.freeCtr)).1 }).seq p = _
  rw [State.seq_modSeq_ne s _ h]

@[simp] theorem State.routine_regs (s : State) (q p : SeqId) (w : Words) : (s.routine q w).regs p = s.regs p := by
  unfold State.regs
  by_cases h : p = q
  · subst h; rw [State.routine_seq]
  · rw [State.routine_seq_ne s w h]

/-- Of a gallery a routine changes the ledger's terms alone. -/
theorem State.routine_gal (s : State) (q : SeqId) (w : Words) (g : GalId) :
    ∃ l, (s.routine q w).gal g = { s.gal g with led := l } := by
  have key : (s.routine q w).gals = (s.led (galOf q) 17 (s.spent q (w.classes s.freeCtr) (Config.freeHold s.freeCtr)).2).gals := rfl
  unfold State.gal
  rw [key]
  by_cases h : g = galOf q
  · subst h; exact ⟨_, State.gal_modGal s (galOf q) _⟩
  · exact ⟨(s.gal g).led, State.gal_modGal_ne s _ h⟩

/-! ### Retirement -/

/-- DBL's settlement and the count of steps change nothing else of a sequencer. -/
theorem Seq.boundary_eq (x : Seq) : x.boundary = { x with
    exc := { x.exc with dbl := x.boundary.exc.dbl, wdcount := x.boundary.exc.wdcount }
    dbg := { x.dbg with steps := x.boundary.dbg.steps, why := x.boundary.dbg.why }
    dhalt := x.boundary.dhalt } := by
  unfold Seq.boundary Seq.stepped Seq.settle
  split <;> split <;> rfl

/-- Retirement is the new PC, the next head and the boundary. -/
theorem Seq.retire_eq (x : Seq) (pc : Half) : x.retire pc = { x with
    regs := { x.regs with pc := pc }
    mic := x.mic.pop
    ra := { x.ra with shadow := none }
    exc := { x.exc with dbl := (x.retire pc).exc.dbl, wdcount := (x.retire pc).exc.wdcount }
    dbg := { x.dbg with bpSkip := false, defcnt := (x.retire pc).dbg.defcnt, steps := (x.retire pc).dbg.steps,
                        why := (x.retire pc).dbg.why }
    dhalt := (x.retire pc).dhalt } := by
  unfold Seq.retire
  rw [Seq.boundary_eq]

theorem retires_retire (q : SeqId) (s : State) (pc : Half) : Retires q s pc (s.modSeq q fun x => x.retire pc) := by
  refine ⟨OnlySeq.modSeq q s _, ?_⟩
  simp only [State.seq_modSeq]
  exact Seq.retire_eq _ pc

/-! ### The fetch -/

@[simp] theorem State.eccRead_seqs (s : State) (g : GalId) (a n : Nat) : (s.eccRead g a n).seqs = s.seqs :=
  State.eccRead_field State.seqs (fun _ _ => rfl) (fun _ _ _ => rfl) s g a n

/-- A record with a code that fires no rope changes no sequencer. -/
theorem State.ctxBroken_seqs (s : State) (c : Half) : (s.ctxBroken c).seqs = s.seqs := by
  unfold State.ctxBroken State.record
  simp
  split <;> rfl

@[simp] theorem State.ctxTouch_seqs (s : State) (c : Half) : (s.ctxTouch c).seqs = s.seqs := by
  unfold State.ctxTouch
  simp only
  split
  · rw [State.ctxBroken_seqs]
  · rfl

/-- A read changes no sequencer. -/
theorem State.memRead_seqs {s t : State} {q : SeqId} {a n : Nat} {v : List Byte} (h : s.memRead q a n = .ok t v) :
    t.seqs = s.seqs := by
  unfold State.memRead at h
  split at h
  · cases h
  · cases h
    exact State.each_field State.seqs (fun s c => State.ctxTouch_seqs s c) _ s
  · split at h
    · cases h
    · cases h
    · split at h
      · cases h
      · split at h
        · cases h
        · cases h
          exact State.eccRead_seqs ..

/-- A fetch changes no sequencer. -/
@[simp] theorem fetched_seqs (q : SeqId) (s : State) : (fetched q s).seqs = s.seqs := by
  unfold fetched
  split
  · rename_i t ea h
    unfold State.fetchAt at h
    simp only at h
    split at h
    · cases h
    · split at h
      · cases h
        rename_i hm
        exact State.memRead_seqs hm
      all_goals cases h
  · rfl

@[simp] theorem fetched_seq (q p : SeqId) (s : State) : (fetched q s).seq p = s.seq p := by
  unfold State.seq; rw [fetched_seqs]

@[simp] theorem fetched_regs (q p : SeqId) (s : State) : (fetched q s).regs p = s.regs p := by
  unfold State.regs; rw [fetched_seq]

theorem fetched_of_ok {q : SeqId} {s t : State} {ea : Nat} (h : s.fetchAt q = .ok t ea) : fetched q s = t := by
  simp [fetched, h]

/-- What an instruction that can run comes to: its body's outcome, applied once its routine's words have issued. -/
theorem runInstr_canRun {i : Instr} {q : SeqId} {touch : Touch} {s : State} (h : canRun q touch s = true) (body : State → Res) :
    runInstr i q touch body s =
      (fetched q s).finish q ((fetched q s).regs q).pc ((body (fetched q s)).spent q (wordsOf i) (fetched q s)) := by
  unfold canRun at h
  cases hf : s.fetchAt q with
  | ok t ea =>
    rw [hf] at h
    simp only [Bool.and_eq_true, Bool.not_eq_true', Bool.or_eq_true, Option.isNone_iff_eq_none] at h
    obtain ⟨hr, hb, ht⟩ := h
    rw [fetched_of_ok hf]
    unfold runInstr runWord
    simp only [hr, hf, State.dispatch, ht]
    obtain hb | hb := hb <;> simp [hb]
  | exn t e => simp [hf] at h
  | wait t => simp [hf] at h

section

variable {i : Instr} {q : SeqId} {touch : Touch} {s a : State} {body : State → Res}

/-- An instruction whose body is done retires to the next word, its routine's words having issued. -/
theorem runInstr_done (h : canRun q touch s = true) (hb : body (fetched q s) = .done a) :
    Retires q (a.routine q (wordsOf i)) ((s.regs q).pc + 4) (runInstr i q touch body s) := by
  rw [runInstr_canRun h, hb, fetched_regs]; simp only [Res.spent]
  exact retires_retire ..

/-- An instruction whose body jumps retires to the target, the queue flushed. -/
theorem runInstr_jump {pc : Half} (h : canRun q touch s = true) (hb : body (fetched q s) = .jump a pc) :
    Retires q (((a.routine q (wordsOf i)).flow q (s.regs q).pc pc).modSeq q Seq.flush) pc (runInstr i q touch body s) := by
  rw [runInstr_canRun h, hb, fetched_regs]; simp only [Res.spent]
  have e := State.modSeq_modSeq ((a.routine q (wordsOf i)).flow q (s.regs q).pc pc) q Seq.flush fun x => x.retire pc
  simp only [State.finish]
  rw [← e]
  exact retires_retire ..

/-- An instruction whose body raises a fault ends by its entry. -/
theorem runInstr_exn {e : Exn} (h : canRun q touch s = true) (hb : body (fetched q s) = .exn a e) :
    runInstr i q touch body s = ((a.routine q wordsFault).enter q (e.entry (s.regs q).pc)).modSeq q fun x =>
      { x with dbg := { x.dbg with bpSkip := false } } := by
  rw [runInstr_canRun h, hb, fetched_regs]; rfl

/-- An instruction whose body makes an entry of its own ends by it. -/
theorem runInstr_entry {e : Entry} (h : canRun q touch s = true) (hb : body (fetched q s) = .entry a e) :
    runInstr i q touch body s = ((a.routine q (wordsOf i)).enter q e).modSeq q fun x =>
      { x with dbg := { x.dbg with bpSkip := false } } := by
  rw [runInstr_canRun h, hb]; rfl

/-- An instruction whose body holds at dispatch leaves what the body left; none of its words has issued. -/
theorem runInstr_hold (h : canRun q touch s = true) (hb : body (fetched q s) = .hold a) :
    runInstr i q touch body s = a.routine q {} := by
  rw [runInstr_canRun h, hb]; rfl

/-- An instruction whose body waits has issued its words. -/
theorem runInstr_wait (h : canRun q touch s = true) (hb : body (fetched q s) = .wait a) :
    runInstr i q touch body s = a.routine q (wordsOf i) := by
  rw [runInstr_canRun h, hb]; rfl

end

/-! ### Accesses -/

theorem State.memRead_seq {s t : State} {q : SeqId} {a n : Nat} {v : List Byte} (h : s.memRead q a n = .ok t v) (p : SeqId) :
    t.seq p = s.seq p := by
  unfold State.seq; rw [State.memRead_seqs h]

theorem State.memRead_regs {s t : State} {q : SeqId} {a n : Nat} {v : List Byte} (h : s.memRead q a n = .ok t v) (p : SeqId) :
    t.regs p = s.regs p := by
  unfold State.regs; rw [State.memRead_seq h]

/-- A store changes memory, its check bits and what a gallery keeps of its banks. -/
theorem State.store_eq (s : State) (a : Nat) (bs : List Byte) :
    s.store a bs = { s with mem := (s.store a bs).mem, ecc := (s.store a bs).ecc, gals := (s.store a bs).gals } := by
  rw [← State.store_pending s a bs, ← State.store_variant s a bs, ← State.store_freeCtr s a bs, ← State.store_seqs s a bs, ← State.store_eng s a bs, ← State.store_mb s a bs, ← State.store_plant s a bs, ← State.store_pow s a bs, ← State.store_ledger s a bs, ← State.store_ev s a bs, ← State.store_recd s a bs, ← State.store_trace s a bs, ← State.store_work s a bs, ← State.store_mp s a bs, ← State.store_dg s a bs, ← State.store_aon s a bs, ← State.store_pd s a bs]

/-- A write changes memory, its check bits and what a gallery keeps of its banks, and nothing else. -/
theorem State.memWrite_eq {s t : State} {q : SeqId} {a : Nat} {bs : List Byte} (h : s.memWrite q a bs = .ok t ()) :
    t = { s with mem := t.mem, ecc := t.ecc, gals := t.gals } := by
  unfold State.memWrite at h
  split at h
  · cases h
  · cases h; rfl
  · split at h
    · cases h
    · cases h
    · split at h
      · cases h
      · cases h; exact congrArg (fun t => State.bankGrant t q _ true _ _) (State.store_eq s a bs)

theorem State.memWrite_seq {s t : State} {q : SeqId} {a : Nat} {bs : List Byte} (h : s.memWrite q a bs = .ok t ()) (p : SeqId) :
    t.seq p = s.seq p := by
  rw [State.memWrite_eq h]; rfl

theorem State.memWrite_regs {s t : State} {q : SeqId} {a : Nat} {bs : List Byte} (h : s.memWrite q a bs = .ok t ()) (p : SeqId) :
    t.regs p = s.regs p := by
  unfold State.regs; rw [State.memWrite_seq h]

theorem leBytes_length (n x : Nat) : (leBytes n x).length = n := by
  induction n generalizing x with
  | zero => rfl
  | succ n ih => simp [leBytes, ih]

/-- Storing bytes stores exactly them. -/
theorem stored_store {s : State} (hm : s.mem.wf = true) (a : Nat) (bs : List Byte) : Stored s (s.store a bs) a bs :=
  ⟨fun i h => by rw [State.store_mem]; exact Memory.get_writeBytes_inside hm a bs i h,
   fun b h => by rw [State.store_mem]; exact Memory.get_writeBytes_outside hm a bs b h⟩

/-- A write to scratch stores its bytes. -/
theorem stored_memWrite {s t : State} (hm : s.mem.wf = true) {q : SeqId} {a off : Nat} {g : GalId} {bs : List Byte} (hp : placeOf a = .scratch g off)
    (h : s.memWrite q a bs = .ok t ()) : Stored s t a bs := by
  unfold State.memWrite at h
  rw [hp] at h
  simp only at h
  split at h
  · cases h
  · cases h
  · split at h
    · cases h
    · cases h; exact stored_store hm a bs

/-! ### The addressing modes -/

/-- R152's offset is what the model computes. -/
theorem offset_of_offsetIs {r r' : Regs} {f : FormR} {size : Nat} {off : Half} (h : OffsetIs r f size off r') :
    ∃ upd, r.offset f size = some (off, upd) ∧ r' = r.updA f.rs upd := by
  unfold OffsetIs at h
  unfold Regs.offset
  rcases h with ⟨h, rfl, rfl⟩ | ⟨h, rfl, rfl⟩ | ⟨h, rfl, rfl⟩ | ⟨h, rfl, rfl⟩ <;> simp [h, Regs.updA]

end Sys2Proof
end

