-- ==== Sys2Proof/Laws/Integer.lean ====
section
/-!
SUPPORT. The wide operations and the flags: what a wide command does, and which bits of ST an operation leaves.
-/

namespace Sys2Proof

open Sys2Proof.Machine

/-- Replacing a sequencer's registers by what they become is changing them. -/
theorem State.modRegs_const (s : State) (q : SeqId) (f : Regs → Regs) : s.modRegs q f = s.modRegs q fun _ => f (s.regs q) := rfl

/-- What a wide command does, where it can run. -/
theorem wide_does {q : SeqId} {op : WideOp} {rd rs : BitVec 5} {s : State} {p : Regs → Regs → Prop}
    (h : canRun q (wideTouch op rd (wideSrc op rs)) s = true)
    (hp : p (s.regs q) (wideRun op rd (wideSrc op rs) (s.regs q))) : WideDoes q op rd rs s p := by
  refine ⟨_, ?_, hp⟩
  have key := runInstr_done (i := wideInstr q op rd rs) (a := (fetched q s).modRegs q (wideRun op rd (wideSrc op rs))) h
    (body := fun s => .done (s.modRegs q (wideRun op rd (wideSrc op rs)))) rfl
  rw [State.modRegs_const, fetched_regs] at key
  cases op <;> exact ⟨_, rfl, key⟩

/-! ### Bits of ST -/

theorem bit_putBit (x : Half) (i j : Nat) (b : Bool) (hi : i < 16) : bit (putBit x i b) j = if i = j then b else bit x j := by
  unfold bit putBit
  by_cases hj : j < 16
  · cases b <;> by_cases h : i = j <;>
      simp [h, hj] <;> (have : j - i ≠ 0 ∨ j < i := by omega) <;> grind [Nat.testBit_one_eq_true_iff_self_eq_zero]
  · have hne : i ≠ j := by omega
    simp [hne, BitVec.getLsbD_of_ge _ _ (Nat.le_of_not_lt hj)]

theorem bit_putOpt (x : Half) (i j : Nat) (o : Option Bool) (hi : i < 16) :
    bit (putOpt x i o) j = if i = j then o.getD (bit x j) else bit x j := by
  cases o with
  | none => simp [putOpt]
  | some b => simpa [putOpt] using bit_putBit x i j b hi

/-- The flags an operation lists, and no other bit of ST, change. -/
theorem flags_apply (f : Flags) (st : Half) : StIs st (f.apply st) f.z f.c f.n f.v f.p f.t := by
  unfold StIs Flags.apply
  simp only [bit_putOpt _ _ _ _ (show stZ < 16 by decide), bit_putOpt _ _ _ _ (show stC < 16 by decide),
    bit_putOpt _ _ _ _ (show stN < 16 by decide), bit_putOpt _ _ _ _ (show stV < 16 by decide),
    bit_putOpt _ _ _ _ (show stP < 16 by decide), bit_putOpt _ _ _ _ (show stT < 16 by decide)]
  refine ⟨rfl, rfl, rfl, rfl, rfl, rfl, fun i hi => ?_⟩
  simp [stZ, stC, stN, stV, stP, stT, show ¬ 0 = i by omega, show ¬ 1 = i by omega, show ¬ 2 = i by omega,
    show ¬ 3 = i by omega, show ¬ 4 = i by omega, show ¬ 5 = i by omega]

end Sys2Proof
end

