-- ==== Sys2Proof/Laws/Kept.lean ====
section
/-!
SUPPORT. What every operation keeps: both memories in their canonical form, the queue of commands, the configuration. Here the
notion, for each kind of outcome; the files after this one say it of each operation once.
-/

namespace Sys2Proof.Machine

open Sys2Proof

/-- Both memories are in their canonical form, the queue is p, the configuration is v. -/
def Kept (p : List Instr) (v : Variant) (s : State) : Prop :=
  s.mem.wf = true ∧ s.mb.bytes.wf = true ∧ s.pending = p ∧ s.variant = v

variable {p : List Instr} {v : Variant} {s t : State}

/-- A change of other fields keeps. -/
theorem Kept.upd {c : Nat} {ec sq ga en mb pl po le ev rc tr wo mp dg ao pd} (h : Kept p v s) (hb : mb.bytes = s.mb.bytes) :
    Kept p v (State.mk s.pending s.variant c s.mem ec sq ga en mb pl po le ev rc tr wo mp dg ao pd) :=
  ⟨h.1, by rw [hb]; exact h.2.1, h.2.2.1, h.2.2.2⟩

/-- A change of memory, and of other fields, keeps where the new memory has its form. -/
theorem Kept.updMem {c : Nat} {mm ec sq ga en mb pl po le ev rc tr wo mp dg ao pd} (h : Kept p v s) (hm : s.mem.wf = true → mm.wf = true)
    (hb : mb.bytes = s.mb.bytes) :
    Kept p v (State.mk s.pending s.variant c mm ec sq ga en mb pl po le ev rc tr wo mp dg ao pd) :=
  ⟨hm h.1, by rw [hb]; exact h.2.1, h.2.2.1, h.2.2.2⟩

/-- A change of the mailboxes, and of other fields, keeps where the new bytes have their form. -/
theorem Kept.updMb {c : Nat} {ec sq ga en mb pl po le ev rc tr wo mp dg ao pd} (h : Kept p v s)
    (hb : s.mb.bytes.wf = true → mb.bytes.wf = true) :
    Kept p v (State.mk s.pending s.variant c s.mem ec sq ga en mb pl po le ev rc tr wo mp dg ao pd) :=
  ⟨h.1, hb h.2.1, h.2.2.1, h.2.2.2⟩

/-- A state on the way, by itself and then for the rest. -/
theorem Kept.have (p : List Instr) (v : Variant) {C : Prop} (x : State) (hx : Kept p v x) (k : Kept p v x → C) : C := k hx

theorem Kept.ite {c : Prop} [Decidable c] (hs : c → Kept p v s) (ht : ¬c → Kept p v t) : Kept p v (if c then s else t) := by
  split
  · exact hs ‹_›
  · exact ht ‹_›

/-! ### Outcomes -/

def KeptAcc (p : List Instr) (v : Variant) {α : Type} : Acc α → Prop
  | .ok s _ | .bus s _ | .wait s => Kept p v s
  | .retry => True

def KeptOpt (p : List Instr) (v : Variant) : Option State → Prop
  | some s => Kept p v s
  | none => True

def KeptSnd (p : List Instr) (v : Variant) {α : Type} (e : α × State) : Prop := Kept p v e.2

def KeptOptSnd (p : List Instr) (v : Variant) {α : Type} : Option (α × State) → Prop
  | some e => Kept p v e.2
  | none => True

def KeptFst (p : List Instr) (v : Variant) {α : Type} (e : State × α) : Prop := Kept p v e.1

def KeptOptFst (p : List Instr) (v : Variant) {α : Type} : Option (State × α) → Prop
  | some e => Kept p v e.1
  | none => True

def KeptRes (p : List Instr) (v : Variant) : Res → Prop
  | .done s | .jump s _ | .hold s | .wait s | .exn s _ | .entry s _ => Kept p v s
  | .retry => True

def KeptFetched (p : List Instr) (v : Variant) : Fetched → Prop
  | .ok s _ | .exn s _ | .wait s => Kept p v s

def KeptShadow (p : List Instr) (v : Variant) : ShadowRes → Prop
  | .on s _ _ => Kept p v s
  | .stop => True

def KeptSrc (p : List Instr) (v : Variant) : Src → Prop
  | .ok s _ _ | .err s _ | .stall s => Kept p v s
  | .retry => True

def KeptSnk (p : List Instr) (v : Variant) : Snk → Prop
  | .ok s _ | .err s _ | .stall s _ => Kept p v s
  | .retry => True

def KeptPrep (p : List Instr) (v : Variant) : Prep → Prop
  | .ok s _ | .err s _ | .stall s _ => Kept p v s
  | .retry => True

def KeptStep (p : List Instr) (v : Variant) : StepRes → Prop
  | .more s _ | .last s _ | .stall s _ | .err s _ => Kept p v s
  | .retry => True

def KeptOptStep (p : List Instr) (v : Variant) : Option StepRes → Prop
  | some e => KeptStep p v e
  | none => True

def KeptEntered (p : List Instr) (v : Variant) (e : Entered) : Prop := Kept p v e.state

def KeptPush (p : List Instr) (v : Variant) : Push → Prop
  | .taken s | .lost s | .full s => Kept p v s

def KeptOut (p : List Instr) (v : Variant) : Out State → Prop
  | .next s => Kept p v s
  | _ => True

/-! ### Into and out of an outcome -/

theorem KeptAcc.mk_ok {α : Type} {x : α} (h : Kept p v s) : KeptAcc p v (Acc.ok s x) := h
theorem KeptAcc.of_ok {α : Type} {x : α} {e : Acc α} (h : KeptAcc p v e) (k : e = .ok s x) : Kept p v s := by subst k; exact h
theorem KeptAcc.mk_bus {α : Type} {x : Byte} (h : Kept p v s) : KeptAcc (α := α) p v (Acc.bus s x) := h
theorem KeptAcc.of_bus {α : Type} {x : Byte} {e : Acc α} (h : KeptAcc p v e) (k : e = .bus s x) : Kept p v s := by subst k; exact h
theorem KeptAcc.mk_wait {α : Type} (h : Kept p v s) : KeptAcc (α := α) p v (Acc.wait s) := h
theorem KeptAcc.of_wait {α : Type} {e : Acc α} (h : KeptAcc p v e) (k : e = .wait s) : Kept p v s := by subst k; exact h
theorem KeptRes.mk_done (h : Kept p v s) : KeptRes p v (Res.done s) := h
theorem KeptRes.of_done {e : Res} (h : KeptRes p v e) (k : e = .done s) : Kept p v s := by subst k; exact h
theorem KeptRes.mk_jump {x : Half} (h : Kept p v s) : KeptRes p v (Res.jump s x) := h
theorem KeptRes.of_jump {x : Half} {e : Res} (h : KeptRes p v e) (k : e = .jump s x) : Kept p v s := by subst k; exact h
theorem KeptRes.mk_hold (h : Kept p v s) : KeptRes p v (Res.hold s) := h
theorem KeptRes.of_hold {e : Res} (h : KeptRes p v e) (k : e = .hold s) : Kept p v s := by subst k; exact h
theorem KeptRes.mk_wait (h : Kept p v s) : KeptRes p v (Res.wait s) := h
theorem KeptRes.of_wait {e : Res} (h : KeptRes p v e) (k : e = .wait s) : Kept p v s := by subst k; exact h
theorem KeptRes.mk_exn {x : Exn} (h : Kept p v s) : KeptRes p v (Res.exn s x) := h
theorem KeptRes.of_exn {x : Exn} {e : Res} (h : KeptRes p v e) (k : e = .exn s x) : Kept p v s := by subst k; exact h
theorem KeptRes.mk_entry {x : _} (h : Kept p v s) : KeptRes p v (Res.entry s x) := h
theorem KeptRes.of_entry {x : _} {e : Res} (h : KeptRes p v e) (k : e = .entry s x) : Kept p v s := by subst k; exact h
theorem KeptFetched.mk_ok {x : Nat} (h : Kept p v s) : KeptFetched p v (Fetched.ok s x) := h
theorem KeptFetched.of_ok {x : Nat} {e : Fetched} (h : KeptFetched p v e) (k : e = .ok s x) : Kept p v s := by subst k; exact h
theorem KeptFetched.mk_exn {x : Exn} (h : Kept p v s) : KeptFetched p v (Fetched.exn s x) := h
theorem KeptFetched.of_exn {x : Exn} {e : Fetched} (h : KeptFetched p v e) (k : e = .exn s x) : Kept p v s := by subst k; exact h
theorem KeptFetched.mk_wait (h : Kept p v s) : KeptFetched p v (Fetched.wait s) := h
theorem KeptFetched.of_wait {e : Fetched} (h : KeptFetched p v e) (k : e = .wait s) : Kept p v s := by subst k; exact h
theorem KeptShadow.mk_on {x : Regs} {y : Half} (h : Kept p v s) : KeptShadow p v (ShadowRes.on s x y) := h
theorem KeptShadow.of_on {x : Regs} {y : Half} {e : ShadowRes} (h : KeptShadow p v e) (k : e = .on s x y) : Kept p v s := by subst k; exact h
theorem KeptSrc.mk_ok {x y} (h : Kept p v s) : KeptSrc p v (Src.ok s x y) := h
theorem KeptSrc.of_ok {x y} {e : Src} (h : KeptSrc p v e) (k : e = .ok s x y) : Kept p v s := by subst k; exact h
theorem KeptSrc.mk_err {x} (h : Kept p v s) : KeptSrc p v (Src.err s x) := h
theorem KeptSrc.of_err {x} {e : Src} (h : KeptSrc p v e) (k : e = .err s x) : Kept p v s := by subst k; exact h
theorem KeptSrc.mk_stall (h : Kept p v s) : KeptSrc p v (Src.stall s) := h
theorem KeptSrc.of_stall {e : Src} (h : KeptSrc p v e) (k : e = .stall s) : Kept p v s := by subst k; exact h
theorem KeptSnk.mk_ok {x} (h : Kept p v s) : KeptSnk p v (Snk.ok s x) := h
theorem KeptSnk.of_ok {x} {e : Snk} (h : KeptSnk p v e) (k : e = .ok s x) : Kept p v s := by subst k; exact h
theorem KeptSnk.mk_err {x} (h : Kept p v s) : KeptSnk p v (Snk.err s x) := h
theorem KeptSnk.of_err {x} {e : Snk} (h : KeptSnk p v e) (k : e = .err s x) : Kept p v s := by subst k; exact h
theorem KeptSnk.mk_stall {x} (h : Kept p v s) : KeptSnk p v (Snk.stall s x) := h
theorem KeptSnk.of_stall {x} {e : Snk} (h : KeptSnk p v e) (k : e = .stall s x) : Kept p v s := by subst k; exact h
theorem KeptPrep.mk_ok {x} (h : Kept p v s) : KeptPrep p v (Prep.ok s x) := h
theorem KeptPrep.of_ok {x} {e : Prep} (h : KeptPrep p v e) (k : e = .ok s x) : Kept p v s := by subst k; exact h
theorem KeptPrep.mk_err {x} (h : Kept p v s) : KeptPrep p v (Prep.err s x) := h
theorem KeptPrep.of_err {x} {e : Prep} (h : KeptPrep p v e) (k : e = .err s x) : Kept p v s := by subst k; exact h
theorem KeptPrep.mk_stall {x} (h : Kept p v s) : KeptPrep p v (Prep.stall s x) := h
theorem KeptPrep.of_stall {x} {e : Prep} (h : KeptPrep p v e) (k : e = .stall s x) : Kept p v s := by subst k; exact h
theorem KeptStep.mk_more {x} (h : Kept p v s) : KeptStep p v (StepRes.more s x) := h
theorem KeptStep.of_more {x} {e : StepRes} (h : KeptStep p v e) (k : e = .more s x) : Kept p v s := by subst k; exact h
theorem KeptStep.mk_last {x} (h : Kept p v s) : KeptStep p v (StepRes.last s x) := h
theorem KeptStep.of_last {x} {e : StepRes} (h : KeptStep p v e) (k : e = .last s x) : Kept p v s := by subst k; exact h
theorem KeptStep.mk_stall {x} (h : Kept p v s) : KeptStep p v (StepRes.stall s x) := h
theorem KeptStep.of_stall {x} {e : StepRes} (h : KeptStep p v e) (k : e = .stall s x) : Kept p v s := by subst k; exact h
theorem KeptStep.mk_err {x} (h : Kept p v s) : KeptStep p v (StepRes.err s x) := h
theorem KeptStep.of_err {x} {e : StepRes} (h : KeptStep p v e) (k : e = .err s x) : Kept p v s := by subst k; exact h
theorem KeptEntered.mk_held (h : Kept p v s) : KeptEntered p v (Entered.held s) := h
theorem KeptEntered.of_held {e : Entered} (h : KeptEntered p v e) (k : e = .held s) : Kept p v s := by subst k; exact h
theorem KeptEntered.mk_third (h : Kept p v s) : KeptEntered p v (Entered.third s) := h
theorem KeptEntered.of_third {e : Entered} (h : KeptEntered p v e) (k : e = .third s) : Kept p v s := by subst k; exact h
theorem KeptEntered.mk_double (h : Kept p v s) : KeptEntered p v (Entered.double s) := h
theorem KeptEntered.of_double {e : Entered} (h : KeptEntered p v e) (k : e = .double s) : Kept p v s := by subst k; exact h
theorem KeptEntered.mk_plain (h : Kept p v s) : KeptEntered p v (Entered.plain s) := h
theorem KeptEntered.of_plain {e : Entered} (h : KeptEntered p v e) (k : e = .plain s) : Kept p v s := by subst k; exact h
theorem KeptPush.mk_taken (h : Kept p v s) : KeptPush p v (Push.taken s) := h
theorem KeptPush.of_taken {e : Push} (h : KeptPush p v e) (k : e = .taken s) : Kept p v s := by subst k; exact h
theorem KeptPush.mk_lost (h : Kept p v s) : KeptPush p v (Push.lost s) := h
theorem KeptPush.of_lost {e : Push} (h : KeptPush p v e) (k : e = .lost s) : Kept p v s := by subst k; exact h
theorem KeptPush.mk_full (h : Kept p v s) : KeptPush p v (Push.full s) := h
theorem KeptPush.of_full {e : Push} (h : KeptPush p v e) (k : e = .full s) : Kept p v s := by subst k; exact h
theorem KeptEntered.st {e : Entered} (h : KeptEntered p v e) : Kept p v e.state := h
theorem KeptOpt.mk_some (h : Kept p v s) : KeptOpt p v (some s) := h
theorem KeptOpt.none : KeptOpt p v none := trivial
theorem KeptOpt.of_some {o : Option State} (h : KeptOpt p v o) (k : o = some s) : Kept p v s := by subst k; exact h
theorem KeptSnd.mk_pair {α : Type} {x : α} (h : Kept p v s) : KeptSnd p v (x, s) := h
theorem KeptSnd.snd {α : Type} {e : α × State} (h : KeptSnd p v e) : Kept p v e.2 := h
theorem KeptSnd.of_pair {α : Type} {e : α × State} {x : α} (h : KeptSnd p v e) (k : e = (x, s)) : Kept p v s := by subst k; exact h
theorem KeptFst.mk_pair {α : Type} {x : α} (h : Kept p v s) : KeptFst p v (s, x) := h
theorem KeptFst.fst {α : Type} {e : State × α} (h : KeptFst p v e) : Kept p v e.1 := h
theorem KeptFst.of_pair {α : Type} {e : State × α} {x : α} (h : KeptFst p v e) (k : e = (s, x)) : Kept p v s := by subst k; exact h
theorem KeptOptSnd.mk_some {α : Type} {x : α} (h : Kept p v s) : KeptOptSnd p v (some (x, s)) := h
theorem KeptOptSnd.none {α : Type} : KeptOptSnd (α := α) p v none := trivial
theorem KeptOptSnd.of_some {α : Type} {o : Option (α × State)} {x : α} (h : KeptOptSnd p v o) (k : o = some (x, s)) : Kept p v s := by subst k; exact h
theorem KeptOptFst.mk_some {α : Type} {x : α} (h : Kept p v s) : KeptOptFst p v (some (s, x)) := h
theorem KeptOptFst.none {α : Type} : KeptOptFst (α := α) p v none := trivial
theorem KeptOptFst.of_some {α : Type} {o : Option (State × α)} {x : α} (h : KeptOptFst p v o) (k : o = some (s, x)) : Kept p v s := by subst k; exact h
theorem KeptOptStep.mk_some {e : StepRes} (h : KeptStep p v e) : KeptOptStep p v (some e) := h
theorem KeptOptStep.none : KeptOptStep p v none := trivial
theorem KeptOptStep.of_some {o : Option StepRes} {e : StepRes} (h : KeptOptStep p v o) (k : o = some e) : KeptStep p v e := by subst k; exact h
theorem KeptOut.mk_next (h : Kept p v s) : KeptOut p v (.next s) := h
theorem KeptOut.of_next {o : Out State} (h : KeptOut p v o) (k : o = .next s) : Kept p v s := by subst k; exact h
theorem KeptAcc.mk_retry {α : Type} : KeptAcc (α := α) p v .retry := trivial
theorem KeptRes.mk_retry : KeptRes p v .retry := trivial
theorem KeptShadow.mk_stop : KeptShadow p v .stop := trivial
theorem KeptSrc.mk_retry : KeptSrc p v .retry := trivial
theorem KeptSnk.mk_retry : KeptSnk p v .retry := trivial
theorem KeptPrep.mk_retry : KeptPrep p v .retry := trivial
theorem KeptStep.mk_retry : KeptStep p v .retry := trivial
theorem KeptOut.mk_fault {x : Fault} : KeptOut p v (.fault x) := trivial
theorem KeptOut.mk_refused {x : Refusal} : KeptOut p v (.refused x) := trivial

end Sys2Proof.Machine
end

