-- ==== Sys2Proof/Laws/KeptInstr.lean ====
section
/-!
SUPPORT. What keeps both memories, the queue and the configuration: the shared operations, the entries, and the instructions of a sequencer. One lemma for each operation, named after
it, for the provers to cite: the outcome keeps where the state it starts from does.
-/

namespace Sys2Proof.Machine

open Sys2Proof

variable {p : List Instr} {v : Variant} {s t : State}

set_option linter.unusedTactic false
set_option linter.unreachableTactic false

/-! ### Ops -/

theorem State.modSeq_kept {a1 a2} (h : Kept p v s) : Kept p v (State.modSeq s a1 a2) := by
  unfold State.modSeq
  with_reducible repeat' first | assumption | (fail_if_no_progress refine Kept.upd ?_ rfl)

theorem State.modGal_kept {a1 a2} (h : Kept p v s) : Kept p v (State.modGal s a1 a2) := by
  unfold State.modGal
  with_reducible repeat' first | assumption | (fail_if_no_progress refine Kept.upd ?_ rfl)

theorem State.modRegs_kept {a1 a2} (h : Kept p v s) : Kept p v (State.modRegs s a1 a2) := State.modSeq_kept h

theorem State.modMd_kept {a1 a2} (h : Kept p v s) : Kept p v (State.modMd s a1 a2) := State.modGal_kept h

theorem State.each_kept {α : Type} {l : List α} {f : State → α → State} (h : Kept p v s)
    (hf : ∀ y x, Kept p v y → Kept p v (f y x)) : Kept p v (s.each l f) := by
  induction l generalizing s with
  | nil => exact h
  | cons x xs ih => exact ih (hf s x h)

theorem State.fresh_kept (h : Kept p v s) : Kept p v (State.fresh s) := by
  unfold State.fresh
  with_reducible repeat' first | assumption | (fail_if_no_progress refine Kept.upd ?_ rfl)

theorem State.hirq_kept {a1} (h : Kept p v s) : Kept p v (State.hirq s a1) := by
  unfold State.hirq
  with_reducible repeat'
    first
    | assumption
    | ((fail_if_no_progress extract_lets +onlyGivenNames z); try (refine Kept.have p v z ?_ ?_; on_goal 1 => unfold z; on_goal 2 => (try clear_value z)))
    | (fail_if_no_progress refine Kept.upd ?_ rfl)

theorem State.packet_kept {a1 a2 a3} (h : Kept p v s) : Kept p v (State.packet s a1 a2 a3) := by
  unfold State.packet
  with_reducible repeat'
    first
    | assumption | intro _
    | ((fail_if_no_progress extract_lets +onlyGivenNames z); try (refine Kept.have p v z ?_ ?_; on_goal 1 => unfold z; on_goal 2 => (try clear_value z)))
    | apply State.fresh_kept | (fail_if_no_progress refine Kept.upd ?_ rfl) | refine Kept.ite ?_ ?_

theorem State.seqPacket_kept {a1 a2 a3 a4} (h : Kept p v s) : Kept p v (State.seqPacket s a1 a2 a3 a4) := by
  unfold State.seqPacket
  with_reducible repeat' first | assumption | intro _ | apply State.packet_kept | refine Kept.ite ?_ ?_

theorem State.fireRope_kept {a1} (h : Kept p v s) : Kept p v (State.fireRope s a1) := by
  unfold State.fireRope
  with_reducible repeat'
    first
    | assumption | intro _
    | ((fail_if_no_progress extract_lets +onlyGivenNames z); try (refine Kept.have p v z ?_ ?_; on_goal 1 => unfold z; on_goal 2 => (try clear_value z)))
    | apply State.each_kept | apply State.modSeq_kept | apply State.modGal_kept | apply State.packet_kept
    | (fail_if_no_progress refine Kept.upd ?_ rfl) | refine Kept.ite ?_ ?_

theorem State.fireRopes_kept {a1} (h : Kept p v s) : Kept p v (State.fireRopes s a1) := by
  unfold State.fireRopes
  with_reducible repeat'
    first
    | assumption | intro _ | apply State.each_kept | apply State.fireRope_kept | refine Kept.ite ?_ ?_

theorem State.record_kept {a1 a2 a3 a4} (h : Kept p v s) : Kept p v (State.record s a1 a2 a3 a4) := by
  unfold State.record
  with_reducible repeat'
    first
    | assumption | intro _
    | ((fail_if_no_progress extract_lets +onlyGivenNames z); try (refine Kept.have p v z ?_ ?_; on_goal 1 => unfold z; on_goal 2 => (try clear_value z)))
    | apply State.fresh_kept | apply State.hirq_kept | apply State.fireRopes_kept
    | (fail_if_no_progress refine Kept.upd ?_ rfl) | refine Kept.ite ?_ ?_

theorem State.led_kept {a1 a2 a3} (h : Kept p v s) : Kept p v (State.led s a1 a2 a3) := State.modGal_kept h

theorem State.awaken_kept {a1 a2} (h : Kept p v s) : Kept p v (State.awaken s a1 a2) := by
  unfold State.awaken
  with_reducible repeat' first | assumption | apply State.modGal_kept | split

theorem State.eccRead_kept {a1 a2 a3} (h : Kept p v s) : Kept p v (State.eccRead s a1 a2 a3) := by
  unfold State.eccRead
  with_reducible repeat'
    first
    | assumption | intro _
    | ((fail_if_no_progress extract_lets +onlyGivenNames z); try (refine Kept.have p v z ?_ ?_; on_goal 1 => unfold z; on_goal 2 => (try clear_value z)))
    | apply State.each_kept | apply State.modGal_kept | (fail_if_no_progress refine Kept.upd ?_ rfl)
    | refine Kept.ite ?_ ?_

theorem State.mergeEcc_kept {a1 a2} (h : Kept p v s) : Kept p v (State.mergeEcc s a1 a2) := by
  unfold State.mergeEcc
  with_reducible repeat' first | assumption | intro _ | apply State.each_kept | apply State.eccRead_kept | split

theorem State.store_kept {a1 a2} (h : Kept p v s) : Kept p v (State.store s a1 a2) := by
  unfold State.store
  with_reducible repeat'
    first
    | assumption | intro _
    | ((fail_if_no_progress extract_lets +onlyGivenNames z); try (refine Kept.have p v z ?_ ?_; on_goal 1 => unfold z; on_goal 2 => (try clear_value z)))
    | apply State.mergeEcc_kept | apply State.awaken_kept | refine Kept.updMem ?_ ?_ rfl
    | exact Memory.wf_writeBytes ‹_› ..

theorem State.scratchRead_kept {a1 a2} (h : Kept p v s) : KeptFst p v (State.scratchRead s a1 a2) := by
  unfold State.scratchRead
  with_reducible repeat'
    first
    | assumption
    | ((fail_if_no_progress extract_lets +onlyGivenNames z); try (refine Kept.have p v z ?_ ?_; on_goal 1 => unfold z; on_goal 2 => (try clear_value z)))
    | apply KeptFst.mk_pair | apply State.awaken_kept | apply State.eccRead_kept | split

theorem State.setCtxField_kept {a1 a2 a3 a4} (h : Kept p v s) : Kept p v (State.setCtxField s a1 a2 a3 a4) := by
  unfold State.setCtxField
  with_reducible repeat' first | assumption | intro _ | refine Kept.updMem ?_ ?_ rfl | exact Memory.wf_writeLE ‹_› ..

theorem State.setCtxState_kept {a1 a2} (h : Kept p v s) : Kept p v (State.setCtxState s a1 a2) :=
  State.setCtxField_kept h

theorem State.setCtxFlag_kept {a1 a2 a3} (h : Kept p v s) : Kept p v (State.setCtxFlag s a1 a2 a3) :=
  State.setCtxField_kept h

theorem State.ctxBroken_kept {a1} (h : Kept p v s) : Kept p v (State.ctxBroken s a1) := by
  unfold State.ctxBroken
  with_reducible repeat'
    first
    | assumption | intro _
    | ((fail_if_no_progress extract_lets +onlyGivenNames z); try (refine Kept.have p v z ?_ ?_; on_goal 1 => unfold z; on_goal 2 => (try clear_value z)))
    | apply State.setCtxState_kept | apply State.record_kept | (fail_if_no_progress refine Kept.upd ?_ rfl)
    | refine Kept.ite ?_ ?_ | refine Kept.updMem ?_ ?_ rfl | exact Memory.wf_writeLE ‹_› ..

theorem State.ctxTouch_kept {a1} (h : Kept p v s) : Kept p v (State.ctxTouch s a1) := by
  unfold State.ctxTouch
  with_reducible repeat'
    first
    | assumption | intro _
    | ((fail_if_no_progress extract_lets +onlyGivenNames z); try (refine Kept.have p v z ?_ ?_; on_goal 1 => unfold z; on_goal 2 => (try clear_value z)))
    | apply State.ctxBroken_kept | (fail_if_no_progress refine Kept.upd ?_ rfl) | refine Kept.ite ?_ ?_

theorem State.irq_kept {a1 a2} (h : Kept p v s) : Kept p v (State.irq s a1 a2) := State.modSeq_kept h

theorem State.breakLock_kept {a1} (h : Kept p v s) : Kept p v (State.breakLock s a1) := by
  unfold State.breakLock
  with_reducible repeat'
    first
    | assumption
    | ((fail_if_no_progress extract_lets +onlyGivenNames z); try (refine Kept.have p v z ?_ ?_; on_goal 1 => unfold z; on_goal 2 => (try clear_value z)))
    | apply State.modSeq_kept | apply State.irq_kept | split

theorem State.breakLocksAt_kept {a1} (h : Kept p v s) : Kept p v (State.breakLocksAt s a1) := by
  unfold State.breakLocksAt
  with_reducible repeat'
    first
    | assumption | intro _ | apply State.each_kept | apply State.breakLock_kept | refine Kept.ite ?_ ?_ | split

/-! ### Operands -/

theorem State.wakeBanks_kept {a1 a2 a3} (h : Kept p v s) : Kept p v (State.wakeBanks s a1 a2 a3) := by
  unfold State.wakeBanks
  with_reducible repeat'
    first
    | assumption
    | ((fail_if_no_progress extract_lets +onlyGivenNames z); try (refine Kept.have p v z ?_ ?_; on_goal 1 => unfold z; on_goal 2 => (try clear_value z)))
    | apply State.modGal_kept

theorem State.bankGrant_kept {a1 a2 a3 a4 a5} (h : Kept p v s) : Kept p v (State.bankGrant s a1 a2 a3 a4 a5) := by
  unfold State.bankGrant
  with_reducible repeat'
    first
    | assumption
    | ((fail_if_no_progress extract_lets +onlyGivenNames z); try (refine Kept.have p v z ?_ ?_; on_goal 1 => unfold z; on_goal 2 => (try clear_value z)))
    | apply State.modGal_kept

theorem State.memRead_kept {a1 a2 a3} (h : Kept p v s) : KeptAcc p v (State.memRead s a1 a2 a3) := by
  unfold State.memRead
  with_reducible repeat'
    first
    | assumption | intro _
    | ((fail_if_no_progress extract_lets +onlyGivenNames z); try (refine Kept.have p v z ?_ ?_; on_goal 1 => unfold z; on_goal 2 => (try clear_value z)))
    | apply KeptAcc.mk_ok | apply KeptAcc.mk_bus | apply KeptAcc.mk_wait | exact KeptAcc.mk_retry
    | apply State.each_kept | apply State.ctxTouch_kept | apply State.wakeBanks_kept | apply State.eccRead_kept
    | apply State.bankGrant_kept | split

theorem State.memWrite_kept {a1 a2 a3} (h : Kept p v s) : KeptAcc p v (State.memWrite s a1 a2 a3) := by
  unfold State.memWrite
  with_reducible repeat'
    first
    | assumption | intro _ | apply KeptAcc.mk_ok | apply KeptAcc.mk_bus | apply KeptAcc.mk_wait
    | exact KeptAcc.mk_retry | apply State.wakeBanks_kept | apply State.bankGrant_kept | apply State.store_kept
    | refine Kept.updMem ?_ ?_ rfl | exact Memory.wf_ctxStore ‹_› .. | split

theorem State.load_kept {a1 a2 a3 a4 a5 f6} (h : Kept p v s) (hf6 : ∀ y0 y1, Kept p v y0 → KeptRes p v (f6 y0 y1)) : KeptRes p v (State.load s a1 a2 a3 a4 a5 f6) := by
  unfold State.load
  with_reducible repeat'
    first
    | assumption | apply KeptRes.mk_hold | apply KeptRes.mk_exn | exact KeptRes.mk_retry | apply State.memRead_kept
    | refine hf6 _ _ ?_ | refine KeptAcc.of_ok ?_ (by assumption) | refine KeptAcc.of_bus ?_ (by assumption)
    | refine KeptAcc.of_wait ?_ (by assumption) | split

theorem State.storeSeg_kept {a1 a2 a3 a4 a5 a6 f7} (h : Kept p v s) (hf7 : ∀ y0, Kept p v y0 → KeptRes p v (f7 y0)) : KeptRes p v (State.storeSeg s a1 a2 a3 a4 a5 a6 f7) := by
  unfold State.storeSeg
  with_reducible repeat'
    first
    | assumption | apply KeptRes.mk_hold | apply KeptRes.mk_exn | exact KeptRes.mk_retry | apply State.memWrite_kept
    | refine hf7 _ ?_ | refine KeptAcc.of_ok ?_ (by assumption) | refine KeptAcc.of_bus ?_ (by assumption)
    | refine KeptAcc.of_wait ?_ (by assumption) | split

/-! ### Entry -/

theorem State.cycles_kept {a1 a2 a3} (h : Kept p v s) : Kept p v (State.cycles s a1 a2 a3) := by
  unfold State.cycles
  with_reducible repeat'
    first
    | assumption
    | ((fail_if_no_progress extract_lets +onlyGivenNames z); try (refine Kept.have p v z ?_ ?_; on_goal 1 => unfold z; on_goal 2 => (try clear_value z)))
    | apply State.led_kept | apply State.modSeq_kept | (fail_if_no_progress refine Kept.upd ?_ rfl)

theorem State.cycle_kept {a1 a2} (h : Kept p v s) : Kept p v (State.cycle s a1 a2) := State.cycles_kept h

theorem State.waited_kept {a1 a2} (h : Kept p v s) : Kept p v (State.waited s a1 a2) := State.fresh_kept
  (State.cycles_kept h)

theorem State.routine_kept {a1 a2} (h : Kept p v s) : Kept p v (State.routine s a1 a2) := State.fresh_kept
  (State.cycles_kept h)

theorem State.countReleased_kept (h : Kept p v s) : Kept p v (State.countReleased s s2) := by
  unfold State.countReleased
  with_reducible repeat'
    first
    | assumption
    | ((fail_if_no_progress extract_lets +onlyGivenNames z); try (refine Kept.have p v z ?_ ?_; on_goal 1 => unfold z; on_goal 2 => (try clear_value z)))
    | (fail_if_no_progress refine Kept.upd ?_ rfl)

theorem State.countReserved_kept {a1} (h : Kept p v s) : Kept p v (State.countReserved s a1) := by
  unfold State.countReserved
  with_reducible repeat'
    first
    | assumption
    | ((fail_if_no_progress extract_lets +onlyGivenNames z); try (refine Kept.have p v z ?_ ?_; on_goal 1 => unfold z; on_goal 2 => (try clear_value z)))
    | (fail_if_no_progress refine Kept.upd ?_ rfl)

theorem State.landAll_kept {a1} (h : Kept p v s) : Kept p v (State.landAll s a1) := State.modSeq_kept h

theorem State.freeLine_kept {a1 a2} (h : Kept p v s) : Kept p v (State.freeLine s a1 a2) := State.modGal_kept h

theorem State.releaseLines_kept {a1 a2} (h : Kept p v s) : Kept p v (State.releaseLines s a1 a2) := by
  unfold State.releaseLines
  with_reducible repeat'
    first
    | assumption | intro _
    | ((fail_if_no_progress extract_lets +onlyGivenNames z); try (refine Kept.have p v z ?_ ?_; on_goal 1 => unfold z; on_goal 2 => (try clear_value z)))
    | apply State.each_kept | apply State.modSeq_kept | apply State.freeLine_kept | refine Kept.ite ?_ ?_

theorem State.releaseOverlap_kept {a1 a2} (h : Kept p v s) : Kept p v (State.releaseOverlap s a1 a2) := by
  unfold State.releaseOverlap
  with_reducible repeat' first | assumption | intro _ | apply State.each_kept | apply State.releaseLines_kept

theorem State.freeChunks_kept {a1} (h : Kept p v s) : Kept p v (State.freeChunks s a1) := by
  unfold State.freeChunks
  with_reducible repeat'
    first
    | assumption | intro _
    | ((fail_if_no_progress extract_lets +onlyGivenNames z); try (refine Kept.have p v z ?_ ?_; on_goal 1 => unfold z; on_goal 2 => (try clear_value z)))
    | apply State.each_kept | apply State.freeLine_kept | refine Kept.ite ?_ ?_

theorem State.withdraw_kept {a1 a2} (h : Kept p v s) : Kept p v (State.withdraw s a1 a2) := State.modMd_kept h

theorem State.dropWrites_kept {a1} (h : Kept p v s) : Kept p v (State.dropWrites s a1) := by
  unfold State.dropWrites
  with_reducible repeat'
    first
    | assumption
    | ((fail_if_no_progress extract_lets +onlyGivenNames z); try (refine Kept.have p v z ?_ ?_; on_goal 1 => unfold z; on_goal 2 => (try clear_value z)))
    | apply State.modMd_kept | apply State.withdraw_kept

theorem State.abandon_kept {a1} (h : Kept p v s) : Kept p v (State.abandon s a1) := by
  unfold State.abandon
  with_reducible repeat'
    first
    | assumption
    | ((fail_if_no_progress extract_lets +onlyGivenNames z); try (refine Kept.have p v z ?_ ?_; on_goal 1 => unfold z; on_goal 2 => (try clear_value z)))
    | apply State.modSeq_kept | apply State.dropWrites_kept | apply State.freeChunks_kept | apply State.withdraw_kept
    | split

theorem State.choose_kept {α : Type} {l : List α} (h : Kept p v s) : KeptOptSnd p v (s.choose l) := by
  unfold State.choose
  split
  · exact KeptOptSnd.none
  · exact KeptOptSnd.mk_some (State.fresh_kept h)

theorem State.mpIssue_kept {a1 a2 a3} (h : Kept p v s) : Kept p v (State.mpIssue s a1 a2 a3) := by
  unfold State.mpIssue
  with_reducible repeat'
    first
    | assumption | intro _
    | ((fail_if_no_progress extract_lets +onlyGivenNames z); try (refine Kept.have p v z ?_ ?_; on_goal 1 => unfold z; on_goal 2 => (try clear_value z)))
    | apply State.modMd_kept | apply State.led_kept | refine Kept.ite ?_ ?_

theorem State.mpTransfer_kept {g w a l} (h : Kept p v s) : Kept p v (s.mpTransfer g w a l) := by
  unfold State.mpTransfer
  extract_lets free
  clear_value free
  split
  · exact h
  · exact State.led_kept (State.mpIssue_kept (KeptOptSnd.of_some (State.choose_kept h) ‹_›))

theorem State.mpWrite_kept {a1 a2 a3} (h : Kept p v s) : Kept p v (State.mpWrite s a1 a2 a3) :=
  State.releaseOverlap_kept (State.store_kept (State.mpTransfer_kept h))

theorem State.mpRead_kept {a1 a2 a3} (h : Kept p v s) : KeptFst p v (State.mpRead s a1 a2 a3) := KeptFst.mk_pair
  (State.mpTransfer_kept h)

theorem State.closeSession_kept {a1} (h : Kept p v s) : Kept p v (State.closeSession s a1) := by
  unfold State.closeSession
  with_reducible repeat'
    first
    | assumption
    | ((fail_if_no_progress extract_lets +onlyGivenNames z); try (refine Kept.have p v z ?_ ?_; on_goal 1 => unfold z; on_goal 2 => (try clear_value z)))
    | (fail_if_no_progress refine Kept.upd ?_ rfl)

theorem State.closeCtxSession_kept {a1} (h : Kept p v s) : Kept p v (State.closeCtxSession s a1) := by
  unfold State.closeCtxSession
  with_reducible repeat' first | assumption | apply State.closeSession_kept | split

theorem State.postRecord_kept {a1 a2} (h : Kept p v s) : Kept p v (State.postRecord s a1 a2) := by
  unfold State.postRecord
  with_reducible repeat'
    first
    | assumption
    | ((fail_if_no_progress extract_lets +onlyGivenNames z); try (refine Kept.have p v z ?_ ?_; on_goal 1 => unfold z; on_goal 2 => (try clear_value z)))
    | apply State.led_kept | (fail_if_no_progress refine Kept.upd ?_ rfl) | split

theorem State.finishItem_kept {a1 a2 a3 a4 a5} (h : Kept p v s) : Kept p v (State.finishItem s a1 a2 a3 a4 a5) := by
  unfold State.finishItem
  with_reducible repeat'
    first
    | assumption | intro _
    | ((fail_if_no_progress extract_lets +onlyGivenNames z); try (refine Kept.have p v z ?_ ?_; on_goal 1 => unfold z; on_goal 2 => (try clear_value z)))
    | apply State.postRecord_kept | apply State.setCtxField_kept | apply State.setCtxState_kept
    | apply State.closeCtxSession_kept | refine Kept.ite ?_ ?_

theorem State.tokensOut_kept {a1} (h : Kept p v s) : Kept p v (State.tokensOut s a1) := by
  unfold State.tokensOut
  with_reducible repeat'
    first
    | assumption | intro _
    | ((fail_if_no_progress extract_lets +onlyGivenNames z); try (refine Kept.have p v z ?_ ?_; on_goal 1 => unfold z; on_goal 2 => (try clear_value z)))
    | apply State.modSeq_kept | apply State.setCtxField_kept | refine Kept.ite ?_ ?_

theorem State.ctxPacket_kept {a1 a2 a3} (h : Kept p v s) : Kept p v (State.ctxPacket s a1 a2 a3) :=
  State.seqPacket_kept h

theorem State.endRunning_kept {a1 a2 a3 a4} (h : Kept p v s) : Kept p v (State.endRunning s a1 a2 a3 a4) := by
  unfold State.endRunning
  with_reducible repeat'
    first
    | assumption
    | ((fail_if_no_progress extract_lets +onlyGivenNames z); try (refine Kept.have p v z ?_ ?_; on_goal 1 => unfold z; on_goal 2 => (try clear_value z)))
    | apply State.tokensOut_kept | apply State.finishItem_kept | apply State.releaseLines_kept
    | apply State.ctxPacket_kept | apply State.modSeq_kept | split

theorem State.dropRunning_kept {a1 a2 a3} (h : Kept p v s) : Kept p v (State.dropRunning s a1 a2 a3) :=
  State.endRunning_kept h

theorem State.dropPrefetch_kept {a1 a2} (h : Kept p v s) : Kept p v (State.dropPrefetch s a1 a2) := by
  unfold State.dropPrefetch
  with_reducible repeat' first | assumption | apply State.modSeq_kept | apply State.finishItem_kept | split

theorem State.saveRegs_kept {a1 a2} (h : Kept p v s) : Kept p v (State.saveRegs s a1 a2) := by
  unfold State.saveRegs
  with_reducible repeat'
    first
    | assumption | intro _
    | ((fail_if_no_progress extract_lets +onlyGivenNames z); try (refine Kept.have p v z ?_ ?_; on_goal 1 => unfold z; on_goal 2 => (try clear_value z)))
    | apply State.store_kept | apply State.setCtxFlag_kept | refine Kept.ite ?_ ?_

theorem State.noteUnbound_kept {a1 a2} (h : Kept p v s) : Kept p v (State.noteUnbound s a1 a2) := State.modGal_kept h

theorem State.completeItem_kept {a1 a2 a3 a4} (h : Kept p v s) : Kept p v (State.completeItem s a1 a2 a3 a4) := by
  unfold State.completeItem
  with_reducible repeat'
    first
    | assumption
    | ((fail_if_no_progress extract_lets +onlyGivenNames z); try (refine Kept.have p v z ?_ ?_; on_goal 1 => unfold z; on_goal 2 => (try clear_value z)))
    | apply State.breakLock_kept | apply State.saveRegs_kept | apply State.store_kept | apply State.noteUnbound_kept
    | apply State.endRunning_kept | split

theorem State.thirdFault_kept {a1 a2 a3} (h : Kept p v s) : Kept p v (State.thirdFault s a1 a2 a3) := by
  unfold State.thirdFault
  with_reducible repeat'
    first
    | assumption
    | ((fail_if_no_progress extract_lets +onlyGivenNames z); try (refine Kept.have p v z ?_ ?_; on_goal 1 => unfold z; on_goal 2 => (try clear_value z)))
    | apply State.modSeq_kept | apply State.abandon_kept | apply State.releaseLines_kept | apply State.breakLock_kept
    | apply State.dropRunning_kept | apply State.dropPrefetch_kept | apply State.record_kept

theorem State.writeBack_kept {a1 a2 a3} (h : Kept p v s) : Kept p v (State.writeBack s a1 a2 a3) := by
  unfold State.writeBack
  with_reducible repeat'
    first
    | assumption
    | ((fail_if_no_progress extract_lets +onlyGivenNames z); try (refine Kept.have p v z ?_ ?_; on_goal 1 => unfold z; on_goal 2 => (try clear_value z)))
    | apply State.countReserved_kept | apply State.mpWrite_kept | (fail_if_no_progress refine Kept.upd ?_ rfl)

theorem State.evict_kept {c} (h : Kept p v s) : Kept p v (s.evict c) := by
  have k : KeptFst p v (s.scratchRead (s.ctxSlot c) 256) := State.scratchRead_kept h
  unfold State.evict
  generalize s.scratchRead (s.ctxSlot c) 256 = e at k ⊢
  obtain ⟨t, bs⟩ := e
  exact State.setCtxFlag_kept (State.setCtxFlag_kept (Kept.ite (fun _ => State.writeBack_kept k) fun _ => h))

theorem State.takeSlot_kept {a1} (h : Kept p v s) : KeptOptSnd p v (State.takeSlot s a1) := by
  unfold State.takeSlot
  with_reducible repeat'
    first
    | assumption | apply KeptOptSnd.mk_some | exact KeptOptSnd.none | apply State.choose_kept | apply State.evict_kept
    | refine KeptOptSnd.of_some ?_ (by assumption) | split

theorem State.makeResident_kept {a1} (h : Kept p v s) : KeptOpt p v (State.makeResident s a1) := by
  unfold State.makeResident
  with_reducible repeat'
    first
    | assumption
    | ((fail_if_no_progress extract_lets +onlyGivenNames z); try (refine Kept.have p v z ?_ ?_; on_goal 1 => unfold z; on_goal 2 => (try clear_value z)))
    | apply KeptOpt.mk_some | exact KeptOpt.none | apply State.takeSlot_kept | apply State.setCtxField_kept
    | apply State.mpRead_kept | apply State.store_kept | apply State.setCtxFlag_kept | apply KeptFst.fst
    | refine KeptOptSnd.of_some ?_ (by assumption) | split

theorem State.startItem_kept {a1 a2} (h : Kept p v s) : Kept p v (State.startItem s a1 a2) := by
  unfold State.startItem
  with_reducible repeat'
    first
    | assumption | intro _
    | ((fail_if_no_progress extract_lets +onlyGivenNames z); try (refine Kept.have p v z ?_ ?_; on_goal 1 => unfold z; on_goal 2 => (try clear_value z)))
    | apply State.store_kept | apply State.setCtxFlag_kept | apply State.setCtxField_kept | refine Kept.ite ?_ ?_

theorem State.switchIn_kept {q it cc} (h : Kept p v s) : KeptOptFst p v (s.switchIn q it cc) := by
  unfold State.switchIn
  extract_lets c s1
  have h1 : Kept p v s1 := State.ctxTouch_kept h
  clear_value s1
  split
  · exact State.finishItem_kept h1
  · split
    · trivial
    · next s2 e =>
      extract_lets s3
      have h3 : Kept p v s3 := State.releaseLines_kept (KeptOpt.of_some (State.makeResident_kept h1) e)
      clear_value s3
      have k : KeptFst p v ((s3.startItem c it).scratchRead (s3.ctxSlot c) 256) := State.scratchRead_kept (State.startItem_kept h3)
      generalize (s3.startItem c it).scratchRead (s3.ctxSlot c) 256 = r at k ⊢
      obtain ⟨s4, img⟩ := r
      exact State.routine_kept (State.ctxPacket_kept (State.modSeq_kept (State.setCtxState_kept (State.setCtxField_kept k))))

theorem State.switchOut_kept {a1 a2} (h : Kept p v s) : KeptFst p v (State.switchOut s a1 a2) := by
  unfold State.switchOut
  with_reducible repeat'
    first
    | assumption
    | ((fail_if_no_progress extract_lets +onlyGivenNames z); try (refine Kept.have p v z ?_ ?_; on_goal 1 => unfold z; on_goal 2 => (try clear_value z)))
    | apply KeptFst.mk_pair | apply State.landAll_kept | apply State.breakLock_kept | apply State.saveRegs_kept
    | apply State.tokensOut_kept | apply State.setCtxState_kept | apply State.setCtxField_kept
    | apply State.noteUnbound_kept | apply State.ctxPacket_kept | apply State.modSeq_kept | split

theorem State.excPacket_kept {a1 a2 a3 a4 a5} (h : Kept p v s) : Kept p v (State.excPacket s a1 a2 a3 a4 a5) :=
  State.seqPacket_kept h

theorem State.doubleEntry_kept {a1 a2 a3 a4 a5} (h : Kept p v s) : KeptEntered p v (State.doubleEntry s a1 a2 a3 a4 a5) := by
  unfold State.doubleEntry
  with_reducible repeat'
    first
    | assumption
    | ((fail_if_no_progress extract_lets +onlyGivenNames z); try (refine Kept.have p v z ?_ ?_; on_goal 1 => unfold z; on_goal 2 => (try clear_value z)))
    | apply KeptEntered.mk_held | apply KeptEntered.mk_third | apply KeptEntered.mk_double
    | apply State.thirdFault_kept | apply State.memRead_kept | apply State.modSeq_kept | apply State.record_kept
    | apply State.excPacket_kept | refine KeptAcc.of_ok ?_ (by assumption) | refine KeptAcc.of_bus ?_ (by assumption)
    | refine KeptAcc.of_wait ?_ (by assumption) | split

theorem State.entryFailed_kept {a1 a2 a3 a4 a5 a6} (h : Kept p v s) : KeptEntered p v (State.entryFailed s a1 a2 a3 a4 a5 a6) := by
  unfold State.entryFailed
  with_reducible repeat'
    first
    | assumption | apply KeptEntered.mk_third | apply State.thirdFault_kept | apply State.doubleEntry_kept | split

theorem State.enterAt_kept {a1 a2} (h : Kept p v s) : KeptEntered p v (State.enterAt s a1 a2) := by
  unfold State.enterAt
  with_reducible repeat'
    first
    | assumption
    | ((fail_if_no_progress extract_lets +onlyGivenNames z); try (refine Kept.have p v z ?_ ?_; on_goal 1 => unfold z; on_goal 2 => (try clear_value z)))
    | apply KeptEntered.mk_held | apply KeptEntered.mk_third | apply KeptEntered.mk_plain
    | apply State.thirdFault_kept | apply State.doubleEntry_kept | apply State.entryFailed_kept
    | apply State.memRead_kept | apply State.memWrite_kept | apply State.modSeq_kept | apply State.modRegs_kept
    | apply State.excPacket_kept | refine KeptAcc.of_ok ?_ (by assumption) | refine KeptAcc.of_bus ?_ (by assumption)
    | refine KeptAcc.of_wait ?_ (by assumption) | split

theorem State.loadFaultEntry_kept {a1 a2} (h : Kept p v s) : Kept p v (State.loadFaultEntry s a1 a2) := by
  unfold State.loadFaultEntry
  with_reducible repeat'
    first
    | assumption
    | ((fail_if_no_progress extract_lets +onlyGivenNames z); try (refine Kept.have p v z ?_ ?_; on_goal 1 => unfold z; on_goal 2 => (try clear_value z)))
    | apply State.modRegs_kept | apply State.fresh_kept | apply State.enterAt_kept | apply KeptEntered.st | split

theorem State.switchTo_kept {a1} (h : Kept p v s) : Kept p v (State.switchTo s a1) := by
  unfold State.switchTo
  with_reducible repeat'
    first
    | assumption
    | ((fail_if_no_progress extract_lets +onlyGivenNames z); try (refine Kept.have p v z ?_ ?_; on_goal 1 => unfold z; on_goal 2 => (try clear_value z)))
    | apply State.switchOut_kept | apply State.switchIn_kept | apply State.loadFaultEntry_kept
    | apply State.modSeq_kept | refine KeptFst.of_pair ?_ (by assumption)
    | refine KeptOptFst.of_some ?_ (by assumption) | split

theorem State.idleBind_kept {a1} (h : Kept p v s) : Kept p v (State.idleBind s a1) := by
  unfold State.idleBind
  with_reducible repeat'
    first
    | assumption | intro _
    | ((fail_if_no_progress extract_lets +onlyGivenNames z); try (refine Kept.have p v z ?_ ?_; on_goal 1 => unfold z; on_goal 2 => (try clear_value z)))
    | apply State.switchIn_kept | apply State.loadFaultEntry_kept | apply State.modSeq_kept
    | refine KeptOptFst.of_some ?_ (by assumption) | refine Kept.ite ?_ ?_ | split

theorem State.endAtEntry_kept {a1 a2 a3 a4} (h : Kept p v s) : Kept p v (State.endAtEntry s a1 a2 a3 a4) := by
  unfold State.endAtEntry
  with_reducible repeat'
    first
    | assumption
    | ((fail_if_no_progress extract_lets +onlyGivenNames z); try (refine Kept.have p v z ?_ ?_; on_goal 1 => unfold z; on_goal 2 => (try clear_value z)))
    | apply State.modRegs_kept | apply State.routine_kept | apply State.completeItem_kept | apply State.modSeq_kept

theorem State.enter_kept {a1 a2 a3} (h : Kept p v s) : Kept p v (State.enter s a1 a2 a3) := by
  unfold State.enter
  with_reducible repeat'
    first
    | assumption | intro _
    | ((fail_if_no_progress extract_lets +onlyGivenNames z); try (refine Kept.have p v z ?_ ?_; on_goal 1 => unfold z; on_goal 2 => (try clear_value z)))
    | apply State.landAll_kept | apply State.cycles_kept | apply State.enterAt_kept | apply State.idleBind_kept
    | apply State.modSeq_kept | apply State.endAtEntry_kept | refine KeptEntered.of_held ?_ (by assumption)
    | refine KeptEntered.of_third ?_ (by assumption) | refine KeptEntered.of_double ?_ (by assumption)
    | refine KeptEntered.of_plain ?_ (by assumption) | refine Kept.ite ?_ ?_ | split

/-! ### Run -/

theorem State.fetchAt_kept {a1} (h : Kept p v s) : KeptFetched p v (State.fetchAt s a1) := by
  unfold State.fetchAt
  with_reducible repeat'
    first
    | assumption
    | ((fail_if_no_progress extract_lets +onlyGivenNames z); try (refine Kept.have p v z ?_ ?_; on_goal 1 => unfold z; on_goal 2 => (try clear_value z)))
    | apply KeptFetched.mk_ok | apply KeptFetched.mk_exn | apply KeptFetched.mk_wait | apply State.memRead_kept
    | refine KeptAcc.of_ok ?_ (by assumption) | refine KeptAcc.of_bus ?_ (by assumption)
    | refine KeptAcc.of_wait ?_ (by assumption) | split

theorem State.flow_kept {a1 a2 a3} (h : Kept p v s) : Kept p v (State.flow s a1 a2 a3) := State.seqPacket_kept h

theorem State.finish_kept {q pc r} (h : Kept p v s) (hr : KeptRes p v r) : Kept p v (s.finish q pc r) := by
  unfold State.finish
  cases r
  case done => exact State.modSeq_kept hr
  case jump => exact State.modSeq_kept (State.flow_kept hr)
  case retry => exact State.modSeq_kept h
  case exn => exact State.modSeq_kept (State.enter_kept hr)
  case entry => exact State.modSeq_kept (State.enter_kept hr)
  all_goals exact hr

theorem State.bpHalt_kept {a1 a2} (h : Kept p v s) : Kept p v (State.bpHalt s a1 a2) := State.modSeq_kept h

theorem State.dispatch_kept {a1 a2 a3 f4} (h : Kept p v s) (hf4 : ∀ y0, Kept p v y0 → KeptRes p v (f4 y0)) : Kept p v (State.dispatch s a1 a2 a3 f4) := by
  unfold State.dispatch
  with_reducible repeat'
    first
    | assumption | intro _
    | ((fail_if_no_progress extract_lets +onlyGivenNames z); try (refine Kept.have p v z ?_ ?_; on_goal 1 => unfold z; on_goal 2 => (try clear_value z)))
    | apply State.bpHalt_kept | apply State.finish_kept | refine hf4 _ ?_ | refine Kept.ite ?_ ?_ | split

theorem runWord_kept {a1 a2 f3} (hf3 : ∀ y0, Kept p v y0 → KeptRes p v (f3 y0)) (h : Kept p v s) : Kept p v (runWord a1 a2 f3 s) := by
  unfold runWord
  with_reducible repeat'
    first
    | assumption | intro _ | apply State.fetchAt_kept | apply State.enter_kept | apply State.routine_kept
    | apply State.dispatch_kept | refine KeptFetched.of_ok ?_ (by assumption)
    | refine KeptFetched.of_exn ?_ (by assumption) | refine KeptFetched.of_wait ?_ (by assumption)
    | refine Kept.ite ?_ ?_ | split

theorem Res.spent_kept {q w r} (h : Kept p v s) (hr : KeptRes p v r) : KeptRes p v (r.spent q w s) := by
  cases r
  case retry => exact State.modSeq_kept (State.routine_kept h)
  all_goals exact State.routine_kept hr

theorem runInstr_kept {a1 a2 a3 f4} (hf4 : ∀ y0, Kept p v y0 → KeptRes p v (f4 y0)) (h : Kept p v s) : Kept p v (runInstr a1 a2 a3 f4 s) := by
  unfold runInstr
  with_reducible repeat' first | assumption | intro _ | apply runWord_kept | apply Res.spent_kept | refine hf4 _ ?_

/-! ### LoadStore -/

theorem loadBody_kept {a1 a2 a3} (h : Kept p v s) : KeptRes p v (loadBody a1 a2 a3 s) := by
  unfold loadBody
  with_reducible repeat'
    first
    | assumption | intro _
    | ((fail_if_no_progress extract_lets +onlyGivenNames z); try (refine Kept.have p v z ?_ ?_; on_goal 1 => unfold z; on_goal 2 => (try clear_value z)))
    | apply KeptRes.mk_done | apply KeptRes.mk_exn | apply State.load_kept | apply State.modRegs_kept | split

theorem storeBody_kept {a1 a2 a3} (h : Kept p v s) : KeptRes p v (storeBody a1 a2 a3 s) := by
  unfold storeBody
  with_reducible repeat'
    first
    | assumption | intro _
    | ((fail_if_no_progress extract_lets +onlyGivenNames z); try (refine Kept.have p v z ?_ ?_; on_goal 1 => unfold z; on_goal 2 => (try clear_value z)))
    | apply KeptRes.mk_done | apply KeptRes.mk_exn | apply State.storeSeg_kept | apply State.modRegs_kept | split

theorem execLdb_kept {a1 a2} (h : Kept p v s) : KeptOut p v (execLdb a1 a2 s) := by
  unfold execLdb
  with_reducible repeat'
    first
    | assumption | intro _ | apply KeptOut.mk_next | apply runInstr_kept | apply loadBody_kept

theorem execLdh_kept {a1 a2} (h : Kept p v s) : KeptOut p v (execLdh a1 a2 s) := by
  unfold execLdh
  with_reducible repeat'
    first
    | assumption | intro _ | apply KeptOut.mk_next | apply runInstr_kept | apply loadBody_kept

theorem execLdw_kept {a1 a2} (h : Kept p v s) : KeptOut p v (execLdw a1 a2 s) := by
  unfold execLdw
  with_reducible repeat'
    first
    | assumption | intro _ | apply KeptOut.mk_next | apply runInstr_kept | apply loadBody_kept

theorem execLda_kept {a1 a2} (h : Kept p v s) : KeptOut p v (execLda a1 a2 s) := by
  unfold execLda
  with_reducible repeat'
    first
    | assumption | intro _ | apply KeptOut.mk_next | apply runInstr_kept | apply loadBody_kept

theorem execStb_kept {a1 a2} (h : Kept p v s) : KeptOut p v (execStb a1 a2 s) := by
  unfold execStb
  with_reducible repeat'
    first
    | assumption | intro _ | apply KeptOut.mk_next | apply runInstr_kept | apply storeBody_kept

theorem execSth_kept {a1 a2} (h : Kept p v s) : KeptOut p v (execSth a1 a2 s) := by
  unfold execSth
  with_reducible repeat'
    first
    | assumption | intro _ | apply KeptOut.mk_next | apply runInstr_kept | apply storeBody_kept

theorem execStw_kept {a1 a2} (h : Kept p v s) : KeptOut p v (execStw a1 a2 s) := by
  unfold execStw
  with_reducible repeat'
    first
    | assumption | intro _ | apply KeptOut.mk_next | apply runInstr_kept | apply storeBody_kept

theorem execSta_kept {a1 a2} (h : Kept p v s) : KeptOut p v (execSta a1 a2 s) := by
  unfold execSta
  with_reducible repeat'
    first
    | assumption | intro _ | apply KeptOut.mk_next | apply runInstr_kept | apply storeBody_kept

theorem movlBody_kept {a1 a2} (h : Kept p v s) : KeptRes p v (movlBody a1 a2 s) := by
  unfold movlBody
  with_reducible repeat'
    first
    | assumption | apply KeptRes.mk_done | apply KeptRes.mk_exn | apply State.modRegs_kept | split

theorem execMovl_kept {a1 a2} (h : Kept p v s) : KeptOut p v (execMovl a1 a2 s) := by
  unfold execMovl
  with_reducible repeat'
    first
    | assumption | intro _ | apply KeptOut.mk_next | apply runInstr_kept | apply movlBody_kept

theorem movxBody_kept {a1 a2} (h : Kept p v s) : KeptRes p v (movxBody a1 a2 s) := by
  unfold movxBody
  with_reducible repeat'
    first
    | assumption
    | ((fail_if_no_progress extract_lets +onlyGivenNames z); try (refine Kept.have p v z ?_ ?_; on_goal 1 => unfold z; on_goal 2 => (try clear_value z)))
    | apply KeptRes.mk_done | apply KeptRes.mk_exn | apply State.modRegs_kept | split

theorem execMovx_kept {a1 a2} (h : Kept p v s) : KeptOut p v (execMovx a1 a2 s) := by
  unfold execMovx
  with_reducible repeat'
    first
    | assumption | intro _ | apply KeptOut.mk_next | apply runInstr_kept | apply movxBody_kept

theorem sldBody_kept {a1 a2} (h : Kept p v s) : KeptRes p v (sldBody a1 a2 s) := by
  unfold sldBody
  with_reducible repeat'
    first
    | assumption | intro _
    | ((fail_if_no_progress extract_lets +onlyGivenNames z); try (refine Kept.have p v z ?_ ?_; on_goal 1 => unfold z; on_goal 2 => (try clear_value z)))
    | apply KeptRes.mk_done | apply KeptRes.mk_exn | apply State.load_kept | apply State.modRegs_kept
    | apply State.modSeq_kept | refine Kept.ite ?_ ?_ | split

theorem execSld_kept {a1 a2} (h : Kept p v s) : KeptOut p v (execSld a1 a2 s) := by
  unfold execSld
  with_reducible repeat'
    first
    | assumption | intro _ | apply KeptOut.mk_next | apply runInstr_kept | apply sldBody_kept

theorem sstBody_kept {a1 a2} (h : Kept p v s) : KeptRes p v (sstBody a1 a2 s) := by
  unfold sstBody
  with_reducible repeat'
    first
    | assumption | intro _
    | ((fail_if_no_progress extract_lets +onlyGivenNames z); try (refine Kept.have p v z ?_ ?_; on_goal 1 => unfold z; on_goal 2 => (try clear_value z)))
    | apply KeptRes.mk_done | apply KeptRes.mk_exn | apply State.storeSeg_kept | split

theorem execSst_kept {a1 a2} (h : Kept p v s) : KeptOut p v (execSst a1 a2 s) := by
  unfold execSst
  with_reducible repeat'
    first
    | assumption | intro _ | apply KeptOut.mk_next | apply runInstr_kept | apply sstBody_kept

theorem leaBody_kept {a1 a2} (h : Kept p v s) : KeptRes p v (leaBody a1 a2 s) := by
  unfold leaBody
  with_reducible repeat'
    first
    | assumption | apply KeptRes.mk_done | apply KeptRes.mk_exn | apply State.modRegs_kept | split

theorem execLea_kept {a1 a2} (h : Kept p v s) : KeptOut p v (execLea a1 a2 s) := by
  unfold execLea
  with_reducible repeat'
    first
    | assumption | intro _ | apply KeptOut.mk_next | apply runInstr_kept | apply leaBody_kept

theorem pushBytes_kept {a1 a2 f3} (h : Kept p v s) (hf3 : ∀ y0, Kept p v y0 → KeptRes p v (f3 y0)) : KeptRes p v (pushBytes a1 a2 s f3) := by
  unfold pushBytes
  with_reducible repeat'
    first
    | assumption | intro _
    | ((fail_if_no_progress extract_lets +onlyGivenNames z); try (refine Kept.have p v z ?_ ?_; on_goal 1 => unfold z; on_goal 2 => (try clear_value z)))
    | apply State.storeSeg_kept | apply State.modRegs_kept | refine hf3 _ ?_

theorem popBytes_kept {a1 a2 f3} (h : Kept p v s) (hf3 : ∀ y0 y1, Kept p v y0 → KeptRes p v (f3 y0 y1)) : KeptRes p v (popBytes a1 a2 s f3) := by
  unfold popBytes
  with_reducible repeat'
    first
    | assumption | intro _
    | ((fail_if_no_progress extract_lets +onlyGivenNames z); try (refine Kept.have p v z ?_ ?_; on_goal 1 => unfold z; on_goal 2 => (try clear_value z)))
    | apply State.load_kept | apply State.modRegs_kept | refine hf3 _ _ ?_

theorem pushBody_kept {a1 a2 a3} (h : Kept p v s) : KeptRes p v (pushBody a1 a2 a3 s) := by
  unfold pushBody
  with_reducible repeat'
    first
    | assumption | intro _ | apply KeptRes.mk_done | apply KeptRes.mk_exn | apply pushBytes_kept | split

theorem popBody_kept {a1 a2 a3} (h : Kept p v s) : KeptRes p v (popBody a1 a2 a3 s) := by
  unfold popBody
  with_reducible repeat'
    first
    | assumption | intro _ | apply KeptRes.mk_done | apply KeptRes.mk_exn | apply popBytes_kept
    | apply State.modRegs_kept | split

theorem execPush_kept {a1 a2 a3} (h : Kept p v s) : KeptOut p v (execPush a1 a2 a3 s) := by
  unfold execPush
  with_reducible repeat'
    first
    | assumption | intro _ | apply KeptOut.mk_next | apply runInstr_kept | apply pushBody_kept

theorem execPop_kept {a1 a2 a3} (h : Kept p v s) : KeptOut p v (execPop a1 a2 a3 s) := by
  unfold execPop
  with_reducible repeat'
    first
    | assumption | intro _ | apply KeptOut.mk_next | apply runInstr_kept | apply popBody_kept

/-! ### Integer -/

theorem wide_kept {a1 a2 a3 a4 a5} (h : Kept p v s) : KeptOut p v (wide a1 a2 a3 a4 a5 s) := by
  unfold wide
  with_reducible repeat'
    first
    | assumption | intro _ | apply KeptOut.mk_next | apply KeptRes.mk_done | apply runInstr_kept
    | apply State.modRegs_kept

theorem pairBody_kept {a1 a2} (h : Kept p v s) : KeptRes p v (pairBody a1 a2 s) := by
  unfold pairBody
  with_reducible repeat'
    first
    | assumption | apply KeptRes.mk_done | apply KeptRes.mk_exn | apply State.routine_kept | apply State.cycle_kept
    | apply State.modRegs_kept | split

theorem execPair_kept {a1 a2} (h : Kept p v s) : KeptOut p v (execPair a1 a2 s) := by
  unfold execPair
  with_reducible repeat'
    first
    | assumption | intro _ | apply KeptOut.mk_next | apply runWord_kept | apply pairBody_kept | refine Kept.ite ?_ ?_

theorem execAddW_kept {a1 a2 a3} (h : Kept p v s) : KeptOut p v (execAddW a1 a2 a3 s) := wide_kept h

theorem execAdcW_kept {a1 a2 a3} (h : Kept p v s) : KeptOut p v (execAdcW a1 a2 a3 s) := wide_kept h

theorem execSubW_kept {a1 a2 a3} (h : Kept p v s) : KeptOut p v (execSubW a1 a2 a3 s) := wide_kept h

theorem execSbcW_kept {a1 a2 a3} (h : Kept p v s) : KeptOut p v (execSbcW a1 a2 a3 s) := wide_kept h

theorem execCmpW_kept {a1 a2 a3} (h : Kept p v s) : KeptOut p v (execCmpW a1 a2 a3 s) := wide_kept h

theorem execAndW_kept {a1 a2 a3} (h : Kept p v s) : KeptOut p v (execAndW a1 a2 a3 s) := wide_kept h

theorem execOrW_kept {a1 a2 a3} (h : Kept p v s) : KeptOut p v (execOrW a1 a2 a3 s) := wide_kept h

theorem execXorW_kept {a1 a2 a3} (h : Kept p v s) : KeptOut p v (execXorW a1 a2 a3 s) := wide_kept h

theorem execAndnW_kept {a1 a2 a3} (h : Kept p v s) : KeptOut p v (execAndnW a1 a2 a3 s) := wide_kept h

theorem execNotW_kept {a1 a2 a3} (h : Kept p v s) : KeptOut p v (execNotW a1 a2 a3 s) := wide_kept h

theorem execNegW_kept {a1 a2 a3} (h : Kept p v s) : KeptOut p v (execNegW a1 a2 a3 s) := wide_kept h

theorem execAddH_kept {a1 a2 a3} (h : Kept p v s) : KeptOut p v (execAddH a1 a2 a3 s) := wide_kept h

theorem execAdcH_kept {a1 a2 a3} (h : Kept p v s) : KeptOut p v (execAdcH a1 a2 a3 s) := wide_kept h

theorem execSubH_kept {a1 a2 a3} (h : Kept p v s) : KeptOut p v (execSubH a1 a2 a3 s) := wide_kept h

theorem execSbcH_kept {a1 a2 a3} (h : Kept p v s) : KeptOut p v (execSbcH a1 a2 a3 s) := wide_kept h

theorem execCmpH_kept {a1 a2 a3} (h : Kept p v s) : KeptOut p v (execCmpH a1 a2 a3 s) := wide_kept h

theorem execAndH_kept {a1 a2 a3} (h : Kept p v s) : KeptOut p v (execAndH a1 a2 a3 s) := wide_kept h

theorem execOrH_kept {a1 a2 a3} (h : Kept p v s) : KeptOut p v (execOrH a1 a2 a3 s) := wide_kept h

theorem execXorH_kept {a1 a2 a3} (h : Kept p v s) : KeptOut p v (execXorH a1 a2 a3 s) := wide_kept h

theorem execNotH_kept {a1 a2 a3} (h : Kept p v s) : KeptOut p v (execNotH a1 a2 a3 s) := wide_kept h

theorem execNegH_kept {a1 a2 a3} (h : Kept p v s) : KeptOut p v (execNegH a1 a2 a3 s) := wide_kept h

theorem execBrevW_kept {a1 a2 a3} (h : Kept p v s) : KeptOut p v (execBrevW a1 a2 a3 s) := wide_kept h

theorem execBrevH_kept {a1 a2 a3} (h : Kept p v s) : KeptOut p v (execBrevH a1 a2 a3 s) := wide_kept h

theorem execParW_kept {a1 a2 a3} (h : Kept p v s) : KeptOut p v (execParW a1 a2 a3 s) := wide_kept h

theorem execParH_kept {a1 a2 a3} (h : Kept p v s) : KeptOut p v (execParH a1 a2 a3 s) := wide_kept h

theorem execSwapbH_kept {a1 a2 a3} (h : Kept p v s) : KeptOut p v (execSwapbH a1 a2 a3 s) := wide_kept h

theorem execSextH_kept {a1 a2 a3} (h : Kept p v s) : KeptOut p v (execSextH a1 a2 a3 s) := wide_kept h

theorem execZextH_kept {a1 a2 a3} (h : Kept p v s) : KeptOut p v (execZextH a1 a2 a3 s) := wide_kept h

theorem execSextW_kept {a1 a2 a3} (h : Kept p v s) : KeptOut p v (execSextW a1 a2 a3 s) := wide_kept h

theorem execZextW_kept {a1 a2 a3} (h : Kept p v s) : KeptOut p v (execZextW a1 a2 a3 s) := wide_kept h

theorem execClzW_kept {a1 a2 a3} (h : Kept p v s) : KeptOut p v (execClzW a1 a2 a3 s) := wide_kept h

theorem execCrcbW_kept {a1 a2 a3} (h : Kept p v s) : KeptOut p v (execCrcbW a1 a2 a3 s) := wide_kept h

theorem execCrch_kept {a1 a2 a3} (h : Kept p v s) : KeptOut p v (execCrch a1 a2 a3 s) := wide_kept h

theorem execCrcw_kept {a1 a2 a3} (h : Kept p v s) : KeptOut p v (execCrcw a1 a2 a3 s) := wide_kept h

theorem execCrcf_kept {a1 a2 a3} (h : Kept p v s) : KeptOut p v (execCrcf a1 a2 a3 s) := wide_kept h

theorem execCrci_kept {a1 a2} (h : Kept p v s) : KeptOut p v (execCrci a1 a2 s) := wide_kept h

theorem execShlW_kept {a1 a2 a3} (h : Kept p v s) : KeptOut p v (execShlW a1 a2 a3 s) := wide_kept h

theorem execShrW_kept {a1 a2 a3} (h : Kept p v s) : KeptOut p v (execShrW a1 a2 a3 s) := wide_kept h

theorem execAsrW_kept {a1 a2 a3} (h : Kept p v s) : KeptOut p v (execAsrW a1 a2 a3 s) := wide_kept h

theorem execRolW_kept {a1 a2 a3} (h : Kept p v s) : KeptOut p v (execRolW a1 a2 a3 s) := wide_kept h

theorem execRorW_kept {a1 a2 a3} (h : Kept p v s) : KeptOut p v (execRorW a1 a2 a3 s) := wide_kept h

theorem execShlH_kept {a1 a2 a3} (h : Kept p v s) : KeptOut p v (execShlH a1 a2 a3 s) := wide_kept h

theorem execShrH_kept {a1 a2 a3} (h : Kept p v s) : KeptOut p v (execShrH a1 a2 a3 s) := wide_kept h

theorem execAsrH_kept {a1 a2 a3} (h : Kept p v s) : KeptOut p v (execAsrH a1 a2 a3 s) := wide_kept h

theorem execRolH_kept {a1 a2 a3} (h : Kept p v s) : KeptOut p v (execRolH a1 a2 a3 s) := wide_kept h

theorem execRorH_kept {a1 a2 a3} (h : Kept p v s) : KeptOut p v (execRorH a1 a2 a3 s) := wide_kept h

theorem execAddiH_kept {a1 a2 a3} (h : Kept p v s) : KeptOut p v (execAddiH a1 a2 a3 s) := wide_kept h

theorem execAddiW_kept {a1 a2 a3} (h : Kept p v s) : KeptOut p v (execAddiW a1 a2 a3 s) := wide_kept h

theorem execCmpiH_kept {a1 a2 a3} (h : Kept p v s) : KeptOut p v (execCmpiH a1 a2 a3 s) := wide_kept h

theorem execCmpiW_kept {a1 a2 a3} (h : Kept p v s) : KeptOut p v (execCmpiW a1 a2 a3 s) := wide_kept h

/-! ### Control -/

theorem execJmp_kept {a1 a2} (h : Kept p v s) : KeptOut p v (execJmp a1 a2 s) := by
  unfold execJmp
  with_reducible repeat'
    first
    | assumption | intro _ | apply KeptOut.mk_next | apply KeptRes.mk_jump | apply runInstr_kept

theorem jccBody_kept {a1 a2 a3} (h : Kept p v s) : KeptRes p v (jccBody a1 a2 a3 s) := by
  unfold jccBody
  with_reducible repeat' first | assumption | apply KeptRes.mk_done | apply KeptRes.mk_jump | split

theorem execJcc_kept {a1 a2 a3} (h : Kept p v s) : KeptOut p v (execJcc a1 a2 a3 s) := by
  unfold execJcc
  with_reducible repeat'
    first
    | assumption | intro _ | apply KeptOut.mk_next | apply runInstr_kept | apply jccBody_kept

theorem callBody_kept {a1 a2} (h : Kept p v s) : KeptRes p v (callBody a1 a2 s) := by
  unfold callBody
  with_reducible repeat' first | assumption | intro _ | apply KeptRes.mk_jump | apply pushBytes_kept

theorem execCall_kept {a1 a2} (h : Kept p v s) : KeptOut p v (execCall a1 a2 s) := by
  unfold execCall
  with_reducible repeat'
    first
    | assumption | intro _ | apply KeptOut.mk_next | apply runInstr_kept | apply callBody_kept

theorem retBody_kept {a1} (h : Kept p v s) : KeptRes p v (retBody a1 s) := by
  unfold retBody
  with_reducible repeat' first | assumption | intro _ | apply KeptRes.mk_jump | apply popBytes_kept

theorem execRet_kept {a1} (h : Kept p v s) : KeptOut p v (execRet a1 s) := by
  unfold execRet
  with_reducible repeat'
    first
    | assumption | intro _ | apply KeptOut.mk_next | apply runInstr_kept | apply retBody_kept

theorem loopBody_kept {a1 a2 a3} (h : Kept p v s) : KeptRes p v (loopBody a1 a2 a3 s) := by
  unfold loopBody
  with_reducible repeat'
    first
    | assumption
    | ((fail_if_no_progress extract_lets +onlyGivenNames z); try (refine Kept.have p v z ?_ ?_; on_goal 1 => unfold z; on_goal 2 => (try clear_value z)))
    | apply KeptRes.mk_done | apply KeptRes.mk_jump | apply State.modRegs_kept | split

theorem execLoop_kept {a1 a2 a3} (h : Kept p v s) : KeptOut p v (execLoop a1 a2 a3 s) := by
  unfold execLoop
  with_reducible repeat'
    first
    | assumption | intro _ | apply KeptOut.mk_next | apply runInstr_kept | apply loopBody_kept

theorem execJmpa_kept {a1 a2} (h : Kept p v s) : KeptOut p v (execJmpa a1 a2 s) := by
  unfold execJmpa
  with_reducible repeat'
    first
    | assumption | intro _ | apply KeptOut.mk_next | apply KeptRes.mk_jump | apply runInstr_kept

theorem execCalla_kept {a1 a2} (h : Kept p v s) : KeptOut p v (execCalla a1 a2 s) := by
  unfold execCalla
  with_reducible repeat'
    first
    | assumption | intro _ | apply KeptOut.mk_next | apply runInstr_kept | apply callBody_kept

theorem gateBody_kept {a1 a2} (h : Kept p v s) : KeptRes p v (gateBody a1 a2 s) := by
  unfold gateBody
  with_reducible repeat'
    first
    | assumption
    | ((fail_if_no_progress extract_lets +onlyGivenNames z); try (refine Kept.have p v z ?_ ?_; on_goal 1 => unfold z; on_goal 2 => (try clear_value z)))
    | apply KeptRes.mk_exn | apply KeptRes.mk_entry | split

theorem execGate_kept {a1 a2} (h : Kept p v s) : KeptOut p v (execGate a1 a2 s) := by
  unfold execGate
  with_reducible repeat'
    first
    | assumption | intro _ | apply KeptOut.mk_next | apply runInstr_kept | apply gateBody_kept

theorem trapBody_kept {a1 a2} (h : Kept p v s) : KeptRes p v (trapBody a1 a2 s) := by
  unfold trapBody
  with_reducible repeat'
    first
    | assumption
    | ((fail_if_no_progress extract_lets +onlyGivenNames z); try (refine Kept.have p v z ?_ ?_; on_goal 1 => unfold z; on_goal 2 => (try clear_value z)))
    | apply KeptRes.mk_exn | apply KeptRes.mk_entry | split

theorem execTrap_kept {a1 a2} (h : Kept p v s) : KeptOut p v (execTrap a1 a2 s) := by
  unfold execTrap
  with_reducible repeat'
    first
    | assumption | intro _ | apply KeptOut.mk_next | apply runInstr_kept | apply trapBody_kept

theorem retsLedge_kept {a1} (h : Kept p v s) : KeptRes p v (retsLedge a1 s) := by
  unfold retsLedge
  with_reducible repeat'
    first
    | assumption
    | ((fail_if_no_progress extract_lets +onlyGivenNames z); try (refine Kept.have p v z ?_ ?_; on_goal 1 => unfold z; on_goal 2 => (try clear_value z)))
    | apply KeptRes.mk_jump | apply State.modRegs_kept

theorem retsFrame_kept {a1} (h : Kept p v s) : KeptRes p v (retsFrame a1 s) := by
  unfold retsFrame
  with_reducible repeat'
    first
    | assumption | intro _
    | ((fail_if_no_progress extract_lets +onlyGivenNames z); try (refine Kept.have p v z ?_ ?_; on_goal 1 => unfold z; on_goal 2 => (try clear_value z)))
    | apply KeptRes.mk_jump | apply State.load_kept | apply State.modRegs_kept

theorem retsBody_kept {a1} (h : Kept p v s) : KeptRes p v (retsBody a1 s) := by
  unfold retsBody
  with_reducible repeat'
    first
    | assumption
    | ((fail_if_no_progress extract_lets +onlyGivenNames z); try (refine Kept.have p v z ?_ ?_; on_goal 1 => unfold z; on_goal 2 => (try clear_value z)))
    | apply KeptRes.mk_exn | apply retsLedge_kept | apply retsFrame_kept | split

theorem execRets_kept {a1} (h : Kept p v s) : KeptOut p v (execRets a1 s) := by
  unfold execRets
  with_reducible repeat'
    first
    | assumption | intro _ | apply KeptOut.mk_next | apply runInstr_kept | apply retsBody_kept

/-! ### Pool -/

theorem mulBody_kept {a1 a2 a3 a4 a5} (h : Kept p v s) : KeptRes p v (mulBody a1 a2 a3 a4 a5 s) := by
  unfold mulBody
  with_reducible repeat'
    first
    | assumption
    | ((fail_if_no_progress extract_lets +onlyGivenNames z); try (refine Kept.have p v z ?_ ?_; on_goal 1 => unfold z; on_goal 2 => (try clear_value z)))
    | apply KeptRes.mk_done | apply KeptRes.mk_exn | apply State.modSeq_kept | split

theorem execMul_kept {a1 a2 a3 a4} (h : Kept p v s) : KeptOut p v (execMul a1 a2 a3 a4 s) := by
  unfold execMul
  with_reducible repeat'
    first
    | assumption | intro _ | apply KeptOut.mk_next | apply runInstr_kept | apply mulBody_kept

theorem execMula_kept {a1 a2 a3 a4} (h : Kept p v s) : KeptOut p v (execMula a1 a2 a3 a4 s) := by
  unfold execMula
  with_reducible repeat'
    first
    | assumption | intro _ | apply KeptOut.mk_next | apply runInstr_kept | apply mulBody_kept

theorem execProductLanding_kept {a1} (h : Kept p v s) : KeptOut p v (execProductLanding a1 s) := by
  unfold execProductLanding
  with_reducible repeat'
    first
    | assumption | intro _ | apply KeptOut.mk_next | apply State.modSeq_kept | refine Kept.ite ?_ ?_ | split

theorem execPoolLanding_kept {a1} (h : Kept p v s) : KeptOut p v (execPoolLanding a1 s) := by
  unfold execPoolLanding
  with_reducible repeat'
    first
    | assumption | intro _ | apply KeptOut.mk_next | apply State.modSeq_kept | refine Kept.ite ?_ ?_ | split

theorem State.poolGrant_kept {a1 a2 a3} (h : Kept p v s) : Kept p v (State.poolGrant s a1 a2 a3) := State.modGal_kept
  (State.modSeq_kept h)

theorem poolBody_kept {a1 a2} (h : Kept p v s) : KeptRes p v (poolBody a1 a2 s) := by
  unfold poolBody
  with_reducible repeat'
    first
    | assumption | apply KeptRes.mk_done | apply KeptRes.mk_hold | apply KeptRes.mk_exn | apply State.poolGrant_kept
    | split

theorem dividerBody_kept {a1 a2} (h : Kept p v s) : KeptRes p v (dividerBody a1 a2 s) := by
  unfold dividerBody
  with_reducible repeat'
    first
    | assumption | apply KeptRes.mk_hold | apply KeptRes.mk_wait | apply KeptRes.mk_exn | apply State.poolGrant_kept
    | split

theorem poolInstr_kept {a1 a2 a3 a4} (h : Kept p v s) : Kept p v (poolInstr a1 a2 a3 a4 s) := by
  unfold poolInstr
  with_reducible repeat' first | assumption | intro _ | apply runInstr_kept | apply poolBody_kept

theorem dividerInstr_kept {a1 a2 a3 a4} (h : Kept p v s) : Kept p v (dividerInstr a1 a2 a3 a4 s) := by
  unfold dividerInstr
  with_reducible repeat' first | assumption | intro _ | apply runInstr_kept | apply dividerBody_kept

theorem execDiv_kept {a1 a2 a3 a4 a5} (h : Kept p v s) : KeptOut p v (execDiv a1 a2 a3 a4 a5 s) := KeptOut.mk_next
  (dividerInstr_kept h)

theorem execRem_kept {a1 a2 a3 a4 a5} (h : Kept p v s) : KeptOut p v (execRem a1 a2 a3 a4 a5 s) := KeptOut.mk_next
  (dividerInstr_kept h)

theorem execFadd_kept {a1 a2 a3 a4 a5} (h : Kept p v s) : KeptOut p v (execFadd a1 a2 a3 a4 a5 s) := KeptOut.mk_next
  (poolInstr_kept h)

theorem execFsub_kept {a1 a2 a3 a4 a5} (h : Kept p v s) : KeptOut p v (execFsub a1 a2 a3 a4 a5 s) := KeptOut.mk_next
  (poolInstr_kept h)

theorem execFmul_kept {a1 a2 a3 a4 a5} (h : Kept p v s) : KeptOut p v (execFmul a1 a2 a3 a4 a5 s) := KeptOut.mk_next
  (poolInstr_kept h)

theorem execFdiv_kept {a1 a2 a3 a4 a5} (h : Kept p v s) : KeptOut p v (execFdiv a1 a2 a3 a4 a5 s) := KeptOut.mk_next
  (dividerInstr_kept h)

theorem execFsqrt_kept {a1 a2 a3 a4 a5} (h : Kept p v s) : KeptOut p v (execFsqrt a1 a2 a3 a4 a5 s) := KeptOut.mk_next
  (dividerInstr_kept h)

theorem execFma_kept {a1 a2 a3 a4 a5} (h : Kept p v s) : KeptOut p v (execFma a1 a2 a3 a4 a5 s) := KeptOut.mk_next
  (poolInstr_kept h)

theorem execFcmp_kept {a1 a2 a3 a4 a5} (h : Kept p v s) : KeptOut p v (execFcmp a1 a2 a3 a4 a5 s) := by
  unfold execFcmp
  with_reducible repeat'
    first
    | assumption | intro _ | apply KeptOut.mk_next | apply State.fresh_kept | apply poolInstr_kept
    | refine Kept.ite ?_ ?_

theorem execFcvt_kept {a1 a2 a3 a4 a5} (h : Kept p v s) : KeptOut p v (execFcvt a1 a2 a3 a4 a5 s) := KeptOut.mk_next
  (poolInstr_kept h)

theorem execFminmax_kept {a1 a2 a3 a4 a5} (h : Kept p v s) : KeptOut p v (execFminmax a1 a2 a3 a4 a5 s) :=
  KeptOut.mk_next (poolInstr_kept h)

theorem execFclass_kept {a1 a2 a3 a4 a5} (h : Kept p v s) : KeptOut p v (execFclass a1 a2 a3 a4 a5 s) :=
  KeptOut.mk_next (poolInstr_kept h)

theorem fbarBody_kept {a1} (h : Kept p v s) : KeptRes p v (fbarBody a1 s) := by
  unfold fbarBody
  with_reducible repeat' first | assumption | apply KeptRes.mk_done | apply KeptRes.mk_hold | split

theorem execFbar_kept {a1} (h : Kept p v s) : KeptOut p v (execFbar a1 s) := by
  unfold execFbar
  with_reducible repeat'
    first
    | assumption | intro _ | apply KeptOut.mk_next | apply runInstr_kept | apply fbarBody_kept

/-! ### Lines -/

theorem State.addReq_kept {a1 a2} (h : Kept p v s) : Kept p v (State.addReq s a1 a2) := State.modMd_kept h

theorem State.lineForChunk_kept {a1} (h : Kept p v s) : KeptOptSnd p v (State.lineForChunk s a1) := by
  unfold State.lineForChunk
  with_reducible repeat'
    first
    | assumption
    | ((fail_if_no_progress extract_lets +onlyGivenNames z); try (refine Kept.have p v z ?_ ?_; on_goal 1 => unfold z; on_goal 2 => (try clear_value z)))
    | apply KeptOptSnd.mk_some | exact KeptOptSnd.none | apply State.modSeq_kept | apply State.freeLine_kept | split

theorem State.ensureChunk_kept {a1 a2 a3 a4} (h : Kept p v s) : Kept p v (State.ensureChunk s a1 a2 a3 a4) := by
  unfold State.ensureChunk
  with_reducible repeat'
    first
    | assumption
    | ((fail_if_no_progress extract_lets +onlyGivenNames z); try (refine Kept.have p v z ?_ ?_; on_goal 1 => unfold z; on_goal 2 => (try clear_value z)))
    | apply State.lineForChunk_kept | apply State.modGal_kept | apply State.addReq_kept
    | refine KeptOptSnd.of_some ?_ (by assumption) | split

theorem State.consumeChunks_kept {a1 a2 a3} (h : Kept p v s) : Kept p v (State.consumeChunks s a1 a2 a3) := by
  unfold State.consumeChunks
  with_reducible repeat'
    first
    | assumption | intro _
    | ((fail_if_no_progress extract_lets +onlyGivenNames z); try (refine Kept.have p v z ?_ ?_; on_goal 1 => unfold z; on_goal 2 => (try clear_value z)))
    | apply State.each_kept | apply State.freeLine_kept | refine Kept.ite ?_ ?_

theorem State.windowRead_kept {a1 a2 a3 a4 a5 a6 a7} (h : Kept p v s) : KeptSrc p v (State.windowRead s a1 a2 a3 a4 a5 a6 a7) := by
  unfold State.windowRead
  with_reducible repeat'
    first
    | assumption | intro _
    | ((fail_if_no_progress extract_lets +onlyGivenNames z); try (refine Kept.have p v z ?_ ?_; on_goal 1 => unfold z; on_goal 2 => (try clear_value z)))
    | apply KeptSrc.mk_ok | apply KeptSrc.mk_err | apply KeptSrc.mk_stall | apply State.each_kept
    | apply State.ensureChunk_kept | refine Kept.ite ?_ ?_ | split

theorem State.source_kept {a1 a2 a3 a4 a5 a6 a7} (h : Kept p v s) : KeptSrc p v (State.source s a1 a2 a3 a4 a5 a6 a7) := by
  unfold State.source
  with_reducible repeat'
    first
    | assumption | apply KeptSrc.mk_ok | apply KeptSrc.mk_err | apply KeptSrc.mk_stall | exact KeptSrc.mk_retry
    | apply State.windowRead_kept | apply State.memRead_kept | refine KeptAcc.of_ok ?_ (by assumption)
    | refine KeptAcc.of_bus ?_ (by assumption) | refine KeptAcc.of_wait ?_ (by assumption) | split

theorem State.ensureWrites_kept {q a2 a3 a4 a5} {k : Nat} (h : Kept p v s) : KeptFst p v (s.ensureWrites q a2 a3 a4 a5 k) := by
  induction k generalizing s a2 with
  | zero => exact h
  | succ n ih =>
    unfold State.ensureWrites
    dsimp only
    split
    · exact h
    · split
      · exact h
      · exact ih (State.addReq_kept h)

theorem State.feedReq_kept {a1 a2 a3} (h : Kept p v s) : Kept p v (State.feedReq s a1 a2 a3) := by
  unfold State.feedReq
  with_reducible repeat'
    first
    | assumption
    | ((fail_if_no_progress extract_lets +onlyGivenNames z); try (refine Kept.have p v z ?_ ?_; on_goal 1 => unfold z; on_goal 2 => (try clear_value z)))
    | apply State.modMd_kept

theorem State.feedChunks_kept {q} {l : List ChunkW} {bs} (h : Kept p v s) : KeptFst p v (s.feedChunks q l bs) := by
  induction l generalizing s bs with
  | nil => exact h
  | cons c cs ih =>
    unfold State.feedChunks
    dsimp only
    split
    · exact ih h
    · exact ih (State.feedReq_kept h)

theorem State.sink_kept {a1 a2 a3 a4 a5 a6 a7} (h : Kept p v s) : KeptSnk p v (State.sink s a1 a2 a3 a4 a5 a6 a7) := by
  unfold State.sink
  with_reducible repeat'
    first
    | assumption | apply KeptSnk.mk_ok | apply KeptSnk.mk_err | apply KeptSnk.mk_stall | exact KeptSnk.mk_retry
    | apply State.ensureWrites_kept | apply State.feedChunks_kept | apply State.memWrite_kept
    | refine KeptAcc.of_ok ?_ (by assumption) | refine KeptAcc.of_bus ?_ (by assumption)
    | refine KeptAcc.of_wait ?_ (by assumption) | refine KeptFst.of_pair ?_ (by assumption) | apply KeptFst.fst
    | split

/-! ### Digest -/

theorem State.modSes_kept {a1 a2} (h : Kept p v s) : Kept p v (State.modSes s a1 a2) := by
  unfold State.modSes
  with_reducible repeat'
    first
    | assumption
    | ((fail_if_no_progress extract_lets +onlyGivenNames z); try (refine Kept.have p v z ?_ ?_; on_goal 1 => unfold z; on_goal 2 => (try clear_value z)))
    | (fail_if_no_progress refine Kept.upd ?_ rfl)

theorem State.dgStart_kept {a1 a2} (h : Kept p v s) : Kept p v (State.dgStart s a1 a2) := by
  unfold State.dgStart
  with_reducible repeat'
    first
    | assumption | intro _
    | ((fail_if_no_progress extract_lets +onlyGivenNames z); try (refine Kept.have p v z ?_ ?_; on_goal 1 => unfold z; on_goal 2 => (try clear_value z)))
    | apply State.modSes_kept | (fail_if_no_progress refine Kept.upd ?_ rfl) | refine Kept.ite ?_ ?_

theorem State.dgKick_kept (h : Kept p v s) : Kept p v (State.dgKick s) := by
  unfold State.dgKick
  with_reducible repeat' first | assumption | intro _ | apply State.dgStart_kept | refine Kept.ite ?_ ?_ | split

theorem State.dgWant_kept {a1} (h : Kept p v s) : Kept p v (State.dgWant s a1) := by
  unfold State.dgWant
  with_reducible repeat'
    first
    | assumption | intro _
    | ((fail_if_no_progress extract_lets +onlyGivenNames z); try (refine Kept.have p v z ?_ ?_; on_goal 1 => unfold z; on_goal 2 => (try clear_value z)))
    | apply State.dgKick_kept | (fail_if_no_progress refine Kept.upd ?_ rfl) | refine Kept.ite ?_ ?_

theorem State.dgGain_kept {a1} (h : Kept p v s) : Kept p v (State.dgGain s a1) := by
  unfold State.dgGain
  with_reducible repeat'
    first
    | assumption | intro _
    | ((fail_if_no_progress extract_lets +onlyGivenNames z); try (refine Kept.have p v z ?_ ?_; on_goal 1 => unfold z; on_goal 2 => (try clear_value z)))
    | apply State.dgStart_kept | (fail_if_no_progress refine Kept.upd ?_ rfl) | refine Kept.ite ?_ ?_

theorem State.dgYielded_kept {a1} (h : Kept p v s) : Kept p v (State.dgYielded s a1) := by
  unfold State.dgYielded
  with_reducible repeat'
    first
    | assumption | intro _
    | ((fail_if_no_progress extract_lets +onlyGivenNames z); try (refine Kept.have p v z ?_ ?_; on_goal 1 => unfold z; on_goal 2 => (try clear_value z)))
    | apply State.dgGain_kept | (fail_if_no_progress refine Kept.upd ?_ rfl) | refine Kept.ite ?_ ?_ | split

theorem State.digestGrant_kept (h : Kept p v s) : Kept p v (State.digestGrant s) := by
  unfold State.digestGrant
  with_reducible repeat'
    first
    | assumption | intro _
    | ((fail_if_no_progress extract_lets +onlyGivenNames z); try (refine Kept.have p v z ?_ ?_; on_goal 1 => unfold z; on_goal 2 => (try clear_value z)))
    | apply State.dgKick_kept | apply State.dgGain_kept | (fail_if_no_progress refine Kept.upd ?_ rfl)
    | refine Kept.ite ?_ ?_ | split

theorem execDigestGrant_kept (h : Kept p v s) : KeptOut p v (execDigestGrant s) := KeptOut.mk_next
  (State.digestGrant_kept h)

theorem State.dgRetire_kept {a1 a2 a3 a4} (h : Kept p v s) : Kept p v (State.dgRetire s a1 a2 a3 a4) :=
  State.modSeq_kept (State.modRegs_kept h)

theorem State.dgEnd_kept {a1 a2 a3} (h : Kept p v s) : Kept p v (State.dgEnd s a1 a2 a3) := by
  unfold State.dgEnd
  with_reducible repeat'
    first
    | assumption
    | ((fail_if_no_progress extract_lets +onlyGivenNames z); try (refine Kept.have p v z ?_ ?_; on_goal 1 => unfold z; on_goal 2 => (try clear_value z)))
    | apply State.modSes_kept | apply State.closeSession_kept | apply State.dgRetire_kept | split
    | dsimp -zeta +zetaDelta only

theorem State.memReach_kept {a1 a2 a3} (h : Kept p v s) : KeptAcc p v (State.memReach s a1 a2 a3) := by
  unfold State.memReach
  with_reducible repeat'
    first
    | assumption | apply KeptAcc.mk_ok | apply KeptAcc.mk_bus | apply KeptAcc.mk_wait | exact KeptAcc.mk_retry
    | apply State.wakeBanks_kept | split

theorem State.dgDeliver_pieces {q : SeqId} {l : List (Nat × List Byte)} {cs : List ChunkW} (h : Kept p v s) :
    Kept p v (l.foldl (fun (p : State × List ChunkW) x =>
      let r := p.1.mkReq q x.1 x.2.length (.chunkW x.2 true)
      (p.1.addReq (galOf q) r, p.2 ++ [{ rid := r.rid, len := x.2.length, pushed := x.2.length, outcome := none }])) (s, cs)).1 := by
  induction l generalizing s cs with
  | nil => exact h
  | cons x xs ih => exact ih (State.addReq_kept h)

theorem State.dgDeliver_kept {q f bs code} (h : Kept p v s) : Kept p v (s.dgDeliver q f bs code) := by
  unfold State.dgDeliver
  extract_lets off
  split
  · exact State.enter_kept (State.modSeq_kept h)
  · split
    · exact State.modSeq_kept (State.dgDeliver_pieces h)
    · split
      · exact State.enter_kept (State.modSeq_kept (KeptAcc.of_bus (State.memWrite_kept h) ‹_›))
      · exact State.dgRetire_kept (KeptAcc.of_ok (State.memWrite_kept h) ‹_›)
      · exact State.dgRetire_kept (State.store_kept (KeptAcc.of_wait (State.memWrite_kept h) ‹_›))
      · exact State.dgRetire_kept (State.store_kept h)

theorem State.dgNext_kept {a1} (h : Kept p v s) : Kept p v (State.dgNext s a1) := State.dgKick_kept (State.dgWant_kept
  h)

theorem State.dgOk_kept {a1 a2 a3} (h : Kept p v s) : Kept p v (State.dgOk s a1 a2 a3) := by
  unfold State.dgOk
  with_reducible repeat'
    first
    | assumption | intro _
    | ((fail_if_no_progress extract_lets +onlyGivenNames z); try (refine Kept.have p v z ?_ ?_; on_goal 1 => unfold z; on_goal 2 => (try clear_value z)))
    | apply State.modSes_kept | apply State.dgStart_kept | apply State.dgKick_kept | apply State.dgNext_kept
    | apply State.dgDeliver_kept | apply State.dgYielded_kept | apply State.closeSession_kept | apply State.dgEnd_kept
    | (fail_if_no_progress refine Kept.upd ?_ rfl) | refine Kept.ite ?_ ?_ | split

theorem State.dgErr_kept {a1 a2} (h : Kept p v s) : Kept p v (State.dgErr s a1 a2) := by
  unfold State.dgErr
  with_reducible repeat'
    first
    | assumption | intro _
    | ((fail_if_no_progress extract_lets +onlyGivenNames z); try (refine Kept.have p v z ?_ ?_; on_goal 1 => unfold z; on_goal 2 => (try clear_value z)))
    | apply State.modSes_kept | apply State.dgEnd_kept | (fail_if_no_progress refine Kept.upd ?_ rfl)
    | refine Kept.ite ?_ ?_

theorem State.digestDone_kept {a1 a2} (h : Kept p v s) : Kept p v (State.digestDone s a1 a2) := by
  unfold State.digestDone
  with_reducible repeat'
    first
    | assumption | intro _
    | ((fail_if_no_progress extract_lets +onlyGivenNames z); try (refine Kept.have p v z ?_ ?_; on_goal 1 => unfold z; on_goal 2 => (try clear_value z)))
    | apply State.dgErr_kept | apply State.dgOk_kept | (fail_if_no_progress refine Kept.upd ?_ rfl)
    | refine Kept.ite ?_ ?_ | split

theorem execDigestTransactionDone_kept {a1 a2} (h : Kept p v s) : KeptOut p v (execDigestTransactionDone a1 a2 s) :=
  KeptOut.mk_next (State.digestDone_kept h)

theorem State.dgTimeoutRecord_kept {a1 a2} (h : Kept p v s) : Kept p v (State.dgTimeoutRecord s a1 a2) := by
  unfold State.dgTimeoutRecord
  with_reducible repeat'
    first
    | assumption
    | ((fail_if_no_progress extract_lets +onlyGivenNames z); try (refine Kept.have p v z ?_ ?_; on_goal 1 => unfold z; on_goal 2 => (try clear_value z)))
    | apply State.record_kept | (fail_if_no_progress refine Kept.upd ?_ rfl)

theorem State.digestTimeout_kept (h : Kept p v s) : Kept p v (State.digestTimeout s) := by
  unfold State.digestTimeout
  with_reducible repeat'
    first
    | assumption | intro _
    | ((fail_if_no_progress extract_lets +onlyGivenNames z); try (refine Kept.have p v z ?_ ?_; on_goal 1 => unfold z; on_goal 2 => (try clear_value z)))
    | apply State.dgTimeoutRecord_kept | apply State.dgErr_kept | apply State.modSes_kept
    | (fail_if_no_progress refine Kept.upd ?_ rfl) | refine Kept.ite ?_ ?_ | split

theorem execDigestTransactionTimeout_kept (h : Kept p v s) : KeptOut p v (execDigestTransactionTimeout s) :=
  KeptOut.mk_next (State.digestTimeout_kept h)

theorem State.dgCond_kept {a1 a2 a3} (h : Kept p v s) : Kept p v (State.dgCond s a1 a2 a3) := by
  unfold State.dgCond
  with_reducible repeat' first | assumption | apply State.modSeq_kept | split

theorem State.comparatorAnswer_kept {a1} (h : Kept p v s) : Kept p v (State.comparatorAnswer s a1) := by
  unfold State.comparatorAnswer
  with_reducible repeat'
    first
    | assumption | intro _
    | ((fail_if_no_progress extract_lets +onlyGivenNames z); try (refine Kept.have p v z ?_ ?_; on_goal 1 => unfold z; on_goal 2 => (try clear_value z)))
    | apply State.record_kept | apply State.dgCond_kept | apply State.dgKick_kept | apply State.dgEnd_kept
    | (fail_if_no_progress refine Kept.upd ?_ rfl) | refine Kept.ite ?_ ?_ | split

theorem execComparatorAnswer_kept {a1} (h : Kept p v s) : KeptOut p v (execComparatorAnswer a1 s) := KeptOut.mk_next
  (State.comparatorAnswer_kept h)

theorem State.comparatorTimeout_kept (h : Kept p v s) : Kept p v (State.comparatorTimeout s) := by
  unfold State.comparatorTimeout
  with_reducible repeat'
    first
    | assumption
    | ((fail_if_no_progress extract_lets +onlyGivenNames z); try (refine Kept.have p v z ?_ ?_; on_goal 1 => unfold z; on_goal 2 => (try clear_value z)))
    | apply State.dgTimeoutRecord_kept | apply State.dgKick_kept | apply State.dgEnd_kept | apply State.dgCond_kept
    | (fail_if_no_progress refine Kept.upd ?_ rfl) | split

theorem execComparatorTimeout_kept (h : Kept p v s) : KeptOut p v (execComparatorTimeout s) := KeptOut.mk_next
  (State.comparatorTimeout_kept h)

theorem dgDone_kept {a1 a2 a3 a4} (h : Kept p v s) : KeptRes p v (dgDone a1 a2 a3 a4 s) := KeptRes.mk_done
  (State.modRegs_kept h)

theorem State.openSession_kept {a1} (h : Kept p v s) : KeptOpt p v (State.openSession s a1) := by
  unfold State.openSession
  with_reducible repeat'
    first
    | assumption | apply KeptOpt.mk_some | exact KeptOpt.none | apply State.choose_kept | apply State.modSes_kept
    | refine KeptOptSnd.of_some ?_ (by assumption) | split

theorem dgOpenBody_kept {a1 a2} (h : Kept p v s) : KeptRes p v (dgOpenBody a1 a2 s) := by
  unfold dgOpenBody
  with_reducible repeat'
    first
    | assumption
    | ((fail_if_no_progress extract_lets +onlyGivenNames z); try (refine Kept.have p v z ?_ ?_; on_goal 1 => unfold z; on_goal 2 => (try clear_value z)))
    | apply dgDone_kept | apply State.openSession_kept | refine KeptOpt.of_some ?_ (by assumption) | split

theorem dgHold_kept {a1 a2 a3 a4} (h : Kept p v s) : KeptRes p v (dgHold a1 a2 a3 a4 s) := by
  unfold dgHold
  with_reducible repeat'
    first
    | assumption
    | ((fail_if_no_progress extract_lets +onlyGivenNames z); try (refine Kept.have p v z ?_ ?_; on_goal 1 => unfold z; on_goal 2 => (try clear_value z)))
    | apply KeptRes.mk_wait | apply State.modSes_kept | apply State.dgWant_kept | apply State.modSeq_kept

theorem dgLater_kept {a1 a2 a3} (h : Kept p v s) : KeptRes p v (dgLater a1 a2 a3 s) := KeptRes.mk_wait
  (State.modSeq_kept h)

theorem dgDest_kept {a1 a2 a3 a4 f5} (h : Kept p v s) (hf5 : ∀ y0, Kept p v y0 → KeptRes p v (f5 y0)) : KeptRes p v (dgDest a1 a2 a3 a4 s f5) := by
  unfold dgDest
  with_reducible repeat'
    first
    | assumption
    | ((fail_if_no_progress extract_lets +onlyGivenNames z); try (refine Kept.have p v z ?_ ?_; on_goal 1 => unfold z; on_goal 2 => (try clear_value z)))
    | apply KeptRes.mk_exn | exact KeptRes.mk_retry | apply State.memReach_kept | apply dgLater_kept | refine hf5 _ ?_
    | refine KeptAcc.of_ok ?_ (by assumption) | refine KeptAcc.of_bus ?_ (by assumption)
    | refine KeptAcc.of_wait ?_ (by assumption) | split

theorem dgSource_kept {a1 a2 a3 a4 f5} (h : Kept p v s) (hf5 : ∀ y0 y1, Kept p v y0 → KeptRes p v (f5 y0 y1)) : KeptRes p v (dgSource a1 a2 a3 a4 s f5) := by
  unfold dgSource
  with_reducible repeat'
    first
    | assumption
    | ((fail_if_no_progress extract_lets +onlyGivenNames z); try (refine Kept.have p v z ?_ ?_; on_goal 1 => unfold z; on_goal 2 => (try clear_value z)))
    | apply KeptRes.mk_exn | exact KeptRes.mk_retry | apply State.source_kept | apply State.freeChunks_kept
    | apply dgLater_kept | refine hf5 _ _ ?_ | refine KeptSrc.of_ok ?_ (by assumption)
    | refine KeptSrc.of_err ?_ (by assumption) | refine KeptSrc.of_stall ?_ (by assumption) | split

theorem dgWithSession_kept {a1 a2 f3} (h : Kept p v s) (hf3 : ∀ y0,  KeptRes p v (f3 y0)) : KeptRes p v (dgWithSession a1 a2 s f3) := by
  unfold dgWithSession
  with_reducible repeat'
    first
    | assumption
    | ((fail_if_no_progress extract_lets +onlyGivenNames z); try (refine Kept.have p v z ?_ ?_; on_goal 1 => unfold z; on_goal 2 => (try clear_value z)))
    | apply dgDone_kept | apply State.closeSession_kept | refine hf3 _  | split

theorem dgFinalBody_kept {a1 a2} (h : Kept p v s) : KeptRes p v (dgFinalBody a1 a2 s) := by
  unfold dgFinalBody
  with_reducible repeat'
    first
    | assumption | intro _ | apply dgWithSession_kept | apply dgDest_kept | apply dgHold_kept

theorem dgCheckBody_kept {a1 a2} (h : Kept p v s) : KeptRes p v (dgCheckBody a1 a2 s) := by
  unfold dgCheckBody
  with_reducible repeat'
    first
    | assumption | intro _
    | ((fail_if_no_progress extract_lets +onlyGivenNames z); try (refine Kept.have p v z ?_ ?_; on_goal 1 => unfold z; on_goal 2 => (try clear_value z)))
    | apply dgDone_kept | apply State.closeSession_kept | apply dgSource_kept | apply dgHold_kept
    | apply State.modSes_kept | split

theorem dgSaveBody_kept {a1 a2} (h : Kept p v s) : KeptRes p v (dgSaveBody a1 a2 s) := by
  unfold dgSaveBody
  with_reducible repeat'
    first
    | assumption | intro _
    | ((fail_if_no_progress extract_lets +onlyGivenNames z); try (refine Kept.have p v z ?_ ?_; on_goal 1 => unfold z; on_goal 2 => (try clear_value z)))
    | apply KeptRes.mk_wait | apply KeptRes.mk_exn | exact KeptRes.mk_retry | apply dgDone_kept | apply dgDest_kept
    | apply State.memWrite_kept | apply dgLater_kept | apply State.dgDeliver_kept | apply dgHold_kept
    | refine KeptAcc.of_ok ?_ (by assumption) | refine KeptAcc.of_bus ?_ (by assumption)
    | refine KeptAcc.of_wait ?_ (by assumption) | split

theorem dgLoadBody_kept {a1 a2} (h : Kept p v s) : KeptRes p v (dgLoadBody a1 a2 s) := by
  unfold dgLoadBody
  with_reducible repeat'
    first
    | assumption | intro _
    | ((fail_if_no_progress extract_lets +onlyGivenNames z); try (refine Kept.have p v z ?_ ?_; on_goal 1 => unfold z; on_goal 2 => (try clear_value z)))
    | apply dgDone_kept | apply dgSource_kept | apply State.openSession_kept
    | refine KeptOpt.of_some ?_ (by assumption) | split

theorem dgAbortBody_kept {a1 a2} (h : Kept p v s) : KeptRes p v (dgAbortBody a1 a2 s) := by
  unfold dgAbortBody
  with_reducible repeat'
    first
    | assumption
    | ((fail_if_no_progress extract_lets +onlyGivenNames z); try (refine Kept.have p v z ?_ ?_; on_goal 1 => unfold z; on_goal 2 => (try clear_value z)))
    | apply KeptRes.mk_wait | apply dgDone_kept | apply State.modSes_kept | apply State.modSeq_kept
    | apply State.closeSession_kept | (fail_if_no_progress refine Kept.upd ?_ rfl) | split

theorem dgstC_kept {a1 a2 a3 f4} (hf4 : ∀ y0, Kept p v y0 → KeptRes p v (f4 y0)) (h : Kept p v s) : KeptRes p v (dgstC a1 a2 a3 f4 s) := by
  unfold dgstC
  with_reducible repeat'
    first
    | assumption
    | ((fail_if_no_progress extract_lets +onlyGivenNames z); try (refine Kept.have p v z ?_ ?_; on_goal 1 => unfold z; on_goal 2 => (try clear_value z)))
    | apply KeptRes.mk_hold | apply KeptRes.mk_exn | refine hf4 _ ?_ | split

theorem dgRun_kept {a1 a2 a3 a4 a5 f6} (hf6 : ∀ y0, Kept p v y0 → KeptRes p v (f6 y0)) (h : Kept p v s) : Kept p v (dgRun a1 a2 a3 a4 a5 f6 s) := by
  unfold dgRun
  with_reducible repeat'
    first
    | assumption | intro _
    | ((fail_if_no_progress extract_lets +onlyGivenNames z); try (refine Kept.have p v z ?_ ?_; on_goal 1 => unfold z; on_goal 2 => (try clear_value z)))
    | apply State.modSeq_kept | apply State.finish_kept | apply Res.spent_kept | apply runInstr_kept
    | apply dgstC_kept | refine hf6 _ ?_ | refine Kept.ite ?_ ?_

theorem execDgstOpen_kept {a1 a2} (h : Kept p v s) : KeptOut p v (execDgstOpen a1 a2 s) := by
  unfold execDgstOpen
  with_reducible repeat'
    first
    | assumption | intro _ | apply KeptOut.mk_next | apply dgRun_kept | apply dgOpenBody_kept

theorem execDgstFinal_kept {a1 a2} (h : Kept p v s) : KeptOut p v (execDgstFinal a1 a2 s) := by
  unfold execDgstFinal
  with_reducible repeat'
    first
    | assumption | intro _ | apply KeptOut.mk_next | apply dgRun_kept | apply dgFinalBody_kept

theorem execDgstCheck_kept {a1 a2} (h : Kept p v s) : KeptOut p v (execDgstCheck a1 a2 s) := by
  unfold execDgstCheck
  with_reducible repeat'
    first
    | assumption | intro _ | apply KeptOut.mk_next | apply dgRun_kept | apply dgCheckBody_kept

theorem execDgstSave_kept {a1 a2} (h : Kept p v s) : KeptOut p v (execDgstSave a1 a2 s) := by
  unfold execDgstSave
  with_reducible repeat'
    first
    | assumption | intro _ | apply KeptOut.mk_next | apply dgRun_kept | apply dgSaveBody_kept

theorem execDgstLoad_kept {a1 a2} (h : Kept p v s) : KeptOut p v (execDgstLoad a1 a2 s) := by
  unfold execDgstLoad
  with_reducible repeat'
    first
    | assumption | intro _ | apply KeptOut.mk_next | apply dgRun_kept | apply dgLoadBody_kept

theorem execDgstAbort_kept {a1 a2} (h : Kept p v s) : KeptOut p v (execDgstAbort a1 a2 s) := by
  unfold execDgstAbort
  with_reducible repeat'
    first
    | assumption | intro _ | apply KeptOut.mk_next | apply dgRun_kept | apply dgAbortBody_kept

theorem State.push_kept {a1 a2} (h : Kept p v s) : KeptPush p v (State.push s a1 a2) := by
  unfold State.push
  with_reducible repeat'
    first
    | assumption
    | ((fail_if_no_progress extract_lets +onlyGivenNames z); try (refine Kept.have p v z ?_ ?_; on_goal 1 => unfold z; on_goal 2 => (try clear_value z)))
    | apply KeptPush.mk_taken | apply KeptPush.mk_lost | apply KeptPush.mk_full | apply State.modSes_kept
    | apply State.dgWant_kept | split

/-! ### Stream -/

theorem State.suspend_kept {a1} (h : Kept p v s) : Kept p v (State.suspend s a1) := State.modSeq_kept
  (State.abandon_kept h)

theorem State.leaveLong_kept {a1 a2} (h : Kept p v s) : Kept p v (State.leaveLong s a1 a2) := by
  unfold State.leaveLong
  with_reducible repeat'
    first
    | assumption | intro _
    | ((fail_if_no_progress extract_lets +onlyGivenNames z); try (refine Kept.have p v z ?_ ?_; on_goal 1 => unfold z; on_goal 2 => (try clear_value z)))
    | apply State.suspend_kept | apply State.modRegs_kept | refine Kept.ite ?_ ?_

theorem State.stepFault_kept {a1 a2} (h : Kept p v s) : Kept p v (State.stepFault s a1 a2) := by
  unfold State.stepFault
  with_reducible repeat'
    first
    | assumption
    | ((fail_if_no_progress extract_lets +onlyGivenNames z); try (refine Kept.have p v z ?_ ?_; on_goal 1 => unfold z; on_goal 2 => (try clear_value z)))
    | apply State.suspend_kept | apply State.enter_kept

theorem State.longDone_kept {a1 a2} (h : Kept p v s) : Kept p v (State.longDone s a1 a2) := by
  unfold State.longDone
  with_reducible repeat'
    first
    | assumption
    | ((fail_if_no_progress extract_lets +onlyGivenNames z); try (refine Kept.have p v z ?_ ?_; on_goal 1 => unfold z; on_goal 2 => (try clear_value z)))
    | apply State.modSeq_kept | apply State.freeChunks_kept | apply State.enter_kept | split

theorem latch_kept {a1 a2 a3 a4 a5} (h : Kept p v s) : KeptPrep p v (latch a1 a2 a3 a4 a5 s) := by
  unfold latch
  with_reducible repeat'
    first
    | assumption
    | ((fail_if_no_progress extract_lets +onlyGivenNames z); try (refine Kept.have p v z ?_ ?_; on_goal 1 => unfold z; on_goal 2 => (try clear_value z)))
    | apply KeptPrep.mk_ok | apply KeptPrep.mk_err | apply KeptPrep.mk_stall | exact KeptPrep.mk_retry
    | apply State.source_kept | apply State.consumeChunks_kept | refine KeptSrc.of_ok ?_ (by assumption)
    | refine KeptSrc.of_err ?_ (by assumption) | refine KeptSrc.of_stall ?_ (by assumption) | split

theorem prepare_kept {a1 a2} (h : Kept p v s) : KeptPrep p v (prepare a1 a2 s) := by
  unfold prepare
  with_reducible repeat'
    first
    | assumption
    | ((fail_if_no_progress extract_lets +onlyGivenNames z); try (refine Kept.have p v z ?_ ?_; on_goal 1 => unfold z; on_goal 2 => (try clear_value z)))
    | apply KeptPrep.mk_ok | apply KeptPrep.mk_err | apply latch_kept | apply State.modRegs_kept
    | refine KeptPrep.of_ok ?_ (by assumption) | split

theorem longStart_kept {a1 a2 a3 a4} (h : Kept p v s) : KeptRes p v (longStart a1 a2 a3 a4 s) := by
  unfold longStart
  with_reducible repeat'
    first
    | assumption | intro _
    | ((fail_if_no_progress extract_lets +onlyGivenNames z); try (refine Kept.have p v z ?_ ?_; on_goal 1 => unfold z; on_goal 2 => (try clear_value z)))
    | apply KeptRes.mk_done | apply KeptRes.mk_wait | apply KeptRes.mk_exn | exact KeptRes.mk_retry
    | apply State.modRegs_kept | apply prepare_kept | apply State.abandon_kept | apply State.modSeq_kept
    | refine KeptPrep.of_ok ?_ (by assumption) | refine KeptPrep.of_err ?_ (by assumption)
    | refine KeptPrep.of_stall ?_ (by assumption) | refine Kept.ite ?_ ?_ | split

theorem noVariant_kept {a1 a2 f3} (hf3 : ∀ y0, Kept p v y0 → KeptRes p v (f3 y0)) (h : Kept p v s) : KeptRes p v (noVariant a1 a2 f3 s) := by
  unfold noVariant
  with_reducible repeat' first | assumption | apply KeptRes.mk_exn | refine hf3 _ ?_ | split

theorem execCopy_kept {a1 a2 a3} (h : Kept p v s) : KeptOut p v (execCopy a1 a2 a3 s) := by
  unfold execCopy
  with_reducible repeat'
    first
    | assumption | intro _ | apply KeptOut.mk_next | apply runInstr_kept | apply noVariant_kept | apply longStart_kept

theorem execScan_kept {a1 a2 a3} (h : Kept p v s) : KeptOut p v (execScan a1 a2 a3 s) := by
  unfold execScan
  with_reducible repeat'
    first
    | assumption | intro _ | apply KeptOut.mk_next | apply runInstr_kept | apply longStart_kept

theorem execCrcs_kept {a1 a2 a3} (h : Kept p v s) : KeptOut p v (execCrcs a1 a2 a3 s) := by
  unfold execCrcs
  with_reducible repeat'
    first
    | assumption | intro _ | apply KeptOut.mk_next | apply runInstr_kept | apply noVariant_kept | apply longStart_kept

theorem execMatchS_kept {a1 a2} (h : Kept p v s) : KeptOut p v (execMatchS a1 a2 s) := by
  unfold execMatchS
  with_reducible repeat'
    first
    | assumption | intro _ | apply KeptOut.mk_next | apply runInstr_kept | apply longStart_kept

theorem execMatchF_kept {a1 a2} (h : Kept p v s) : KeptOut p v (execMatchF a1 a2 s) := by
  unfold execMatchF
  with_reducible repeat'
    first
    | assumption | intro _ | apply KeptOut.mk_next | apply runInstr_kept | apply longStart_kept

theorem execHashs_kept {a1 a2 a3} (h : Kept p v s) : KeptOut p v (execHashs a1 a2 a3 s) := by
  unfold execHashs
  with_reducible repeat'
    first
    | assumption | intro _ | apply KeptOut.mk_next | apply runInstr_kept | apply noVariant_kept | apply longStart_kept

theorem execFilt_kept {a1 a2 a3} (h : Kept p v s) : KeptOut p v (execFilt a1 a2 a3 s) := by
  unfold execFilt
  with_reducible repeat'
    first
    | assumption | intro _ | apply KeptOut.mk_next | apply runInstr_kept | apply noVariant_kept | apply longStart_kept

theorem execDgstP_kept {a1 a2} (h : Kept p v s) : KeptOut p v (execDgstP a1 a2 s) := by
  unfold execDgstP
  with_reducible repeat'
    first
    | assumption | intro _ | apply KeptOut.mk_next | apply runInstr_kept | apply longStart_kept

theorem execFills_kept {a1 a2 a3} (h : Kept p v s) : KeptOut p v (execFills a1 a2 a3 s) := by
  unfold execFills
  with_reducible repeat'
    first
    | assumption | intro _ | apply KeptOut.mk_next | apply runInstr_kept | apply longStart_kept

theorem execCmps_kept {a1 a2 a3} (h : Kept p v s) : KeptOut p v (execCmps a1 a2 a3 s) := by
  unfold execCmps
  with_reducible repeat'
    first
    | assumption | intro _ | apply KeptOut.mk_next | apply runInstr_kept | apply noVariant_kept | apply longStart_kept

theorem stepSource_kept {a1 a2 a3 a4 f5} (h : Kept p v s) (hf5 : ∀ y0 y1 y2, Kept p v y0 → KeptStep p v (f5 y0 y1 y2)) : KeptStep p v (stepSource a1 a2 a3 a4 s f5) := by
  unfold stepSource
  with_reducible repeat'
    first
    | assumption
    | ((fail_if_no_progress extract_lets +onlyGivenNames z); try (refine Kept.have p v z ?_ ?_; on_goal 1 => unfold z; on_goal 2 => (try clear_value z)))
    | apply KeptStep.mk_stall | apply KeptStep.mk_err | exact KeptStep.mk_retry | apply State.source_kept
    | refine hf5 _ _ _ ?_ | refine KeptSrc.of_ok ?_ (by assumption) | refine KeptSrc.of_err ?_ (by assumption)
    | refine KeptSrc.of_stall ?_ (by assumption) | split

theorem stepSecond_kept {a1 a2 a3 f4} (h : Kept p v s) (hf4 : ∀ y0 y1 y2, Kept p v y0 → KeptStep p v (f4 y0 y1 y2)) : KeptStep p v (stepSecond a1 a2 a3 s f4) := by
  unfold stepSecond
  with_reducible repeat'
    first
    | assumption
    | ((fail_if_no_progress extract_lets +onlyGivenNames z); try (refine Kept.have p v z ?_ ?_; on_goal 1 => unfold z; on_goal 2 => (try clear_value z)))
    | apply KeptStep.mk_stall | apply KeptStep.mk_err | exact KeptStep.mk_retry | apply State.source_kept
    | refine hf4 _ _ _ ?_ | refine KeptSrc.of_ok ?_ (by assumption) | refine KeptSrc.of_err ?_ (by assumption)
    | refine KeptSrc.of_stall ?_ (by assumption) | split

theorem stepSink_kept {a1 a2 a3 a4 a5} (h : Kept p v s) : KeptStep p v (stepSink a1 a2 a3 a4 a5 s) := by
  unfold stepSink
  with_reducible repeat'
    first
    | assumption
    | ((fail_if_no_progress extract_lets +onlyGivenNames z); try (refine Kept.have p v z ?_ ?_; on_goal 1 => unfold z; on_goal 2 => (try clear_value z)))
    | apply KeptStep.mk_more | apply KeptStep.mk_stall | apply KeptStep.mk_err | exact KeptStep.mk_retry
    | apply State.sink_kept | apply State.modRegs_kept | refine KeptSnk.of_ok ?_ (by assumption)
    | refine KeptSnk.of_err ?_ (by assumption) | refine KeptSnk.of_stall ?_ (by assumption) | split

theorem copyStep_kept {a1 a2} (h : Kept p v s) : KeptStep p v (copyStep a1 a2 s) := by
  unfold copyStep
  with_reducible repeat'
    first
    | assumption | intro _
    | ((fail_if_no_progress extract_lets +onlyGivenNames z); try (refine Kept.have p v z ?_ ?_; on_goal 1 => unfold z; on_goal 2 => (try clear_value z)))
    | apply KeptStep.mk_err | apply stepSource_kept | apply stepSink_kept | split

theorem fillsStep_kept {a1 a2} (h : Kept p v s) : KeptStep p v (fillsStep a1 a2 s) := by
  unfold fillsStep
  with_reducible repeat'
    first
    | assumption
    | ((fail_if_no_progress extract_lets +onlyGivenNames z); try (refine Kept.have p v z ?_ ?_; on_goal 1 => unfold z; on_goal 2 => (try clear_value z)))
    | apply KeptStep.mk_err | apply stepSink_kept | split

theorem scanStep_kept {a1 a2} (h : Kept p v s) : KeptStep p v (scanStep a1 a2 s) := by
  unfold scanStep
  with_reducible repeat'
    first
    | assumption | intro _
    | ((fail_if_no_progress extract_lets +onlyGivenNames z); try (refine Kept.have p v z ?_ ?_; on_goal 1 => unfold z; on_goal 2 => (try clear_value z)))
    | apply KeptStep.mk_more | apply KeptStep.mk_last | apply stepSource_kept | apply State.modRegs_kept | split

theorem crcsStep_kept {a1 a2} (h : Kept p v s) : KeptStep p v (crcsStep a1 a2 s) := by
  unfold crcsStep
  with_reducible repeat'
    first
    | assumption | intro _ | apply KeptStep.mk_more | apply stepSource_kept | apply State.modRegs_kept

theorem dgstStep_kept {a1 a2} (h : Kept p v s) : KeptStep p v (dgstStep a1 a2 s) := by
  unfold dgstStep
  with_reducible repeat'
    first
    | assumption | intro _ | apply KeptStep.mk_more | apply KeptStep.mk_stall | apply stepSource_kept
    | apply State.push_kept | apply State.modRegs_kept | refine KeptPush.of_taken ?_ (by assumption)
    | refine KeptPush.of_lost ?_ (by assumption) | refine KeptPush.of_full ?_ (by assumption) | split

theorem pairStep_kept {a1 a2} (h : Kept p v s) : KeptStep p v (pairStep a1 a2 s) := by
  unfold pairStep
  with_reducible repeat'
    first
    | assumption | intro _
    | ((fail_if_no_progress extract_lets +onlyGivenNames z); try (refine Kept.have p v z ?_ ?_; on_goal 1 => unfold z; on_goal 2 => (try clear_value z)))
    | apply KeptStep.mk_more | apply KeptStep.mk_last | apply KeptStep.mk_err | apply stepSource_kept
    | apply stepSecond_kept | apply State.modRegs_kept | split

theorem matchFStep_kept {a1 a2} (h : Kept p v s) : KeptStep p v (matchFStep a1 a2 s) := by
  unfold matchFStep
  with_reducible repeat'
    first
    | assumption | intro _
    | ((fail_if_no_progress extract_lets +onlyGivenNames z); try (refine Kept.have p v z ?_ ?_; on_goal 1 => unfold z; on_goal 2 => (try clear_value z)))
    | apply KeptStep.mk_more | apply KeptStep.mk_last | apply KeptStep.mk_err | apply stepSource_kept
    | apply State.modRegs_kept | split

theorem State.writeAll_reach {q : SeqId} {ps : List (Nat × List Byte)} {e : Acc Unit} (h : KeptAcc p v e) :
    KeptAcc p v (ps.foldl (fun (acc : Acc Unit) p => match acc with
      | .ok s _ => s.memReach q p.1 p.2.length
      | x => x) e) := by
  induction ps generalizing e with
  | nil => exact h
  | cons x xs ih =>
    refine ih ?_
    dsimp only
    split
    · exact State.memReach_kept h
    · exact h

theorem State.writeAll_write {q : SeqId} {ps : List (Nat × List Byte)} (h : Kept p v s) :
    Kept p v (ps.foldl (fun s p => match s.memWrite q p.1 p.2 with | .ok s _ => s | _ => s) s) := by
  induction ps generalizing s with
  | nil => exact h
  | cons x xs ih =>
    refine ih ?_
    dsimp only
    split
    · exact KeptAcc.of_ok (State.memWrite_kept h) ‹_›
    · exact h

theorem State.writeAll_kept {q ps} (h : Kept p v s) : KeptAcc p v (s.writeAll q ps) := by
  have k := State.writeAll_reach (q := q) (ps := ps) (e := .ok s ()) (p := p) (v := v) h
  unfold State.writeAll
  dsimp only
  split
  · exact State.writeAll_write (KeptAcc.of_ok k ‹_›)
  · exact k

theorem hashsStep_kept {a1 a2} (h : Kept p v s) : KeptStep p v (hashsStep a1 a2 s) := by
  unfold hashsStep
  with_reducible repeat'
    first
    | assumption | intro _
    | ((fail_if_no_progress extract_lets +onlyGivenNames z); try (refine Kept.have p v z ?_ ?_; on_goal 1 => unfold z; on_goal 2 => (try clear_value z)))
    | apply KeptStep.mk_more | apply KeptStep.mk_stall | apply KeptStep.mk_err | exact KeptStep.mk_retry
    | apply stepSource_kept | apply State.writeAll_kept | apply State.modRegs_kept
    | refine KeptAcc.of_ok ?_ (by assumption) | refine KeptAcc.of_bus ?_ (by assumption)
    | refine KeptAcc.of_wait ?_ (by assumption) | split

theorem filtStep_kept {a1 a2} (h : Kept p v s) : KeptStep p v (filtStep a1 a2 s) := by
  unfold filtStep
  with_reducible repeat'
    first
    | assumption | intro _
    | ((fail_if_no_progress extract_lets +onlyGivenNames z); try (refine Kept.have p v z ?_ ?_; on_goal 1 => unfold z; on_goal 2 => (try clear_value z)))
    | apply KeptStep.mk_more | apply KeptStep.mk_stall | apply KeptStep.mk_err | exact KeptStep.mk_retry
    | apply stepSource_kept | apply State.modRegs_kept | apply State.writeAll_kept
    | refine KeptAcc.of_ok ?_ (by assumption) | refine KeptAcc.of_bus ?_ (by assumption)
    | refine KeptAcc.of_wait ?_ (by assumption) | split

theorem longStep_kept {a1 a2} (h : Kept p v s) : KeptStep p v (longStep a1 a2 s) := by
  unfold longStep
  with_reducible repeat'
    first
    | assumption | apply copyStep_kept | apply scanStep_kept | apply crcsStep_kept | apply pairStep_kept
    | apply matchFStep_kept | apply hashsStep_kept | apply filtStep_kept | apply dgstStep_kept | apply fillsStep_kept
    | split

theorem State.consumed_kept {a1 a2} (h : Kept p v s) : Kept p v (State.consumed s a1 a2) := by
  unfold State.consumed
  with_reducible repeat'
    first
    | assumption
    | ((fail_if_no_progress extract_lets +onlyGivenNames z); try (refine Kept.have p v z ?_ ?_; on_goal 1 => unfold z; on_goal 2 => (try clear_value z)))
    | apply State.consumeChunks_kept | split

theorem State.afterStep_kept {a1 a2} (h : Kept p v s) : Kept p v (State.afterStep s a1 a2) := by
  unfold State.afterStep
  with_reducible repeat'
    first
    | assumption | intro _
    | ((fail_if_no_progress extract_lets +onlyGivenNames z); try (refine Kept.have p v z ?_ ?_; on_goal 1 => unfold z; on_goal 2 => (try clear_value z)))
    | apply State.consumed_kept | apply State.longDone_kept | apply State.modSeq_kept | refine Kept.ite ?_ ?_

theorem State.doStep_kept {a1 a2} (h : Kept p v s) : Kept p v (State.doStep s a1 a2) := by
  unfold State.doStep
  with_reducible repeat'
    first
    | assumption | intro _ | apply State.longDone_kept | apply longStep_kept | apply State.afterStep_kept
    | apply State.cycle_kept | apply State.modSeq_kept | apply State.stepFault_kept | apply State.suspend_kept
    | refine KeptStep.of_more ?_ (by assumption) | refine KeptStep.of_last ?_ (by assumption)
    | refine KeptStep.of_stall ?_ (by assumption) | refine KeptStep.of_err ?_ (by assumption) | refine Kept.ite ?_ ?_
    | split

theorem State.streamStep_kept {a1} (h : Kept p v s) : Kept p v (State.streamStep s a1) := by
  unfold State.streamStep
  with_reducible repeat'
    first
    | assumption | intro _
    | ((fail_if_no_progress extract_lets +onlyGivenNames z); try (refine Kept.have p v z ?_ ?_; on_goal 1 => unfold z; on_goal 2 => (try clear_value z)))
    | apply State.enter_kept | apply State.modSeq_kept | apply State.abandon_kept | apply State.dgRetire_kept
    | apply State.leaveLong_kept | apply State.stepFault_kept | apply State.doStep_kept | apply prepare_kept
    | refine KeptPrep.of_ok ?_ (by assumption) | refine KeptPrep.of_err ?_ (by assumption)
    | refine KeptPrep.of_stall ?_ (by assumption) | refine Kept.ite ?_ ?_ | split

theorem execStreamStep_kept {a1} (h : Kept p v s) : KeptOut p v (execStreamStep a1 s) := KeptOut.mk_next
  (State.streamStep_kept h)

/-! ### Transfer -/

theorem State.partDone_kept {a1 a2 a3 a4} (h : Kept p v s) : Kept p v (State.partDone s a1 a2 a3 a4) := by
  unfold State.partDone
  with_reducible repeat'
    first
    | assumption
    | ((fail_if_no_progress extract_lets +onlyGivenNames z); try (refine Kept.have p v z ?_ ?_; on_goal 1 => unfold z; on_goal 2 => (try clear_value z)))
    | (fail_if_no_progress refine Kept.upd ?_ rfl)

theorem State.finishWaitt_kept {a1 a2} (h : Kept p v s) : Kept p v (State.finishWaitt s a1 a2) := by
  unfold State.finishWaitt
  with_reducible repeat'
    first
    | assumption
    | ((fail_if_no_progress extract_lets +onlyGivenNames z); try (refine Kept.have p v z ?_ ?_; on_goal 1 => unfold z; on_goal 2 => (try clear_value z)))
    | apply State.setCtxField_kept | apply State.modRegs_kept

theorem State.transferRetire_kept {a1} (h : Kept p v s) : Kept p v (State.transferRetire s a1) := by
  unfold State.transferRetire
  with_reducible repeat'
    first
    | assumption | intro _
    | ((fail_if_no_progress extract_lets +onlyGivenNames z); try (refine Kept.have p v z ?_ ?_; on_goal 1 => unfold z; on_goal 2 => (try clear_value z)))
    | apply State.setCtxField_kept | apply State.irq_kept | apply State.modSeq_kept | apply State.finishWaitt_kept
    | (fail_if_no_progress refine Kept.upd ?_ rfl) | refine Kept.ite ?_ ?_ | split

theorem execTransferRetire_kept {a1} (h : Kept p v s) : KeptOut p v (execTransferRetire a1 s) := KeptOut.mk_next
  (State.transferRetire_kept h)

theorem State.banksReady_kept {a1 a2 a3} (h : Kept p v s) : KeptOpt p v (State.banksReady s a1 a2 a3) := by
  unfold State.banksReady
  with_reducible repeat'
    first
    | assumption
    | ((fail_if_no_progress extract_lets +onlyGivenNames z); try (refine Kept.have p v z ?_ ?_; on_goal 1 => unfold z; on_goal 2 => (try clear_value z)))
    | apply KeptOpt.mk_some | exact KeptOpt.none | apply State.modGal_kept | split

theorem State.resolveBound_kept {a1 a2} (h : Kept p v s) : Kept p v (State.resolveBound s a1 a2) := by
  unfold State.resolveBound
  with_reducible repeat'
    first
    | assumption | intro _
    | ((fail_if_no_progress extract_lets +onlyGivenNames z); try (refine Kept.have p v z ?_ ?_; on_goal 1 => unfold z; on_goal 2 => (try clear_value z)))
    | apply State.store_kept | apply State.modGal_kept | apply State.partDone_kept | apply State.addReq_kept
    | refine Kept.ite ?_ ?_ | split

theorem State.newXfer_kept {a1 a2 a3 a4 a5 a6} (h : Kept p v s) : Kept p v (State.newXfer s a1 a2 a3 a4 a5 a6) := by
  unfold State.newXfer
  with_reducible repeat'
    first
    | assumption
    | ((fail_if_no_progress extract_lets +onlyGivenNames z); try (refine Kept.have p v z ?_ ?_; on_goal 1 => unfold z; on_goal 2 => (try clear_value z)))
    | apply State.setCtxField_kept | (fail_if_no_progress refine Kept.upd ?_ rfl)

theorem waitMedia_kept {a1 a2} (h : Kept p v s) : KeptRes p v (waitMedia a1 a2 s) := KeptRes.mk_wait
  (State.modSeq_kept (State.addReq_kept h))

theorem xferDone_kept {a1} (h : Kept p v s) : KeptRes p v (xferDone a1 s) := KeptRes.mk_done (State.modRegs_kept h)

theorem State.bindLine_kept {a1 a2 a3 a4} (h : Kept p v s) : Kept p v (State.bindLine s a1 a2 a3 a4) := by
  unfold State.bindLine
  with_reducible repeat'
    first
    | assumption
    | ((fail_if_no_progress extract_lets +onlyGivenNames z); try (refine Kept.have p v z ?_ ?_; on_goal 1 => unfold z; on_goal 2 => (try clear_value z)))
    | apply State.modGal_kept | apply State.modSeq_kept

theorem fetchGo_kept {a1 a2 a3 a4 a5} (h : Kept p v s) : KeptRes p v (fetchGo a1 a2 a3 a4 a5 s) := by
  unfold fetchGo
  with_reducible repeat'
    first
    | assumption
    | ((fail_if_no_progress extract_lets +onlyGivenNames z); try (refine Kept.have p v z ?_ ?_; on_goal 1 => unfold z; on_goal 2 => (try clear_value z)))
    | apply KeptRes.mk_hold | apply waitMedia_kept | apply State.newXfer_kept | apply State.bindLine_kept
    | apply xferDone_kept | apply State.resolveBound_kept | (fail_if_no_progress refine Kept.upd ?_ rfl) | split

theorem fetchBody_kept {a1 a2 a3} (h : Kept p v s) : KeptRes p v (fetchBody a1 a2 a3 s) := by
  unfold fetchBody
  with_reducible repeat'
    first
    | assumption
    | ((fail_if_no_progress extract_lets +onlyGivenNames z); try (refine Kept.have p v z ?_ ?_; on_goal 1 => unfold z; on_goal 2 => (try clear_value z)))
    | apply KeptRes.mk_hold | apply KeptRes.mk_exn | apply xferDone_kept | apply State.banksReady_kept
    | apply fetchGo_kept | refine KeptOpt.of_some ?_ (by assumption) | split

theorem execFetch_kept {a1 a2 a3} (h : Kept p v s) : KeptOut p v (execFetch a1 a2 a3 s) := by
  unfold execFetch
  with_reducible repeat'
    first
    | assumption | intro _ | apply KeptOut.mk_next | apply runInstr_kept | apply fetchBody_kept

theorem putBody_kept {a1 a2} (h : Kept p v s) : KeptRes p v (putBody a1 a2 s) := by
  unfold putBody
  with_reducible repeat'
    first
    | assumption
    | ((fail_if_no_progress extract_lets +onlyGivenNames z); try (refine Kept.have p v z ?_ ?_; on_goal 1 => unfold z; on_goal 2 => (try clear_value z)))
    | apply KeptRes.mk_hold | apply KeptRes.mk_exn | apply xferDone_kept | apply State.banksReady_kept
    | apply waitMedia_kept | (fail_if_no_progress refine Kept.upd ?_ rfl) | refine KeptOpt.of_some ?_ (by assumption)
    | split

theorem execPut_kept {a1 a2 a3} (h : Kept p v s) : KeptOut p v (execPut a1 a2 a3 s) := by
  unfold execPut
  with_reducible repeat'
    first
    | assumption | intro _ | apply KeptOut.mk_next | apply runInstr_kept | apply noVariant_kept | apply putBody_kept

theorem waittBody_kept {a1 a2} (h : Kept p v s) : KeptRes p v (waittBody a1 a2 s) := by
  unfold waittBody
  with_reducible repeat'
    first
    | assumption
    | ((fail_if_no_progress extract_lets +onlyGivenNames z); try (refine Kept.have p v z ?_ ?_; on_goal 1 => unfold z; on_goal 2 => (try clear_value z)))
    | apply KeptRes.mk_done | apply KeptRes.mk_wait | apply KeptRes.mk_exn | apply State.finishWaitt_kept
    | apply State.modSeq_kept | split

theorem execWaitt_kept {a1 a2} (h : Kept p v s) : KeptOut p v (execWaitt a1 a2 s) := by
  unfold execWaitt
  with_reducible repeat'
    first
    | assumption | intro _ | apply KeptOut.mk_next | apply runInstr_kept | apply waittBody_kept

theorem State.startXfer_kept {a1} (h : Kept p v s) : Kept p v (State.startXfer s a1) := by
  unfold State.startXfer
  with_reducible repeat'
    first
    | assumption | apply State.newXfer_kept | apply State.resolveBound_kept | apply State.bindLine_kept | split

theorem State.issueReq_kept {a1 a2} (h : Kept p v s) : Kept p v (State.issueReq s a1 a2) := by
  unfold State.issueReq
  with_reducible repeat'
    first
    | assumption | intro _
    | ((fail_if_no_progress extract_lets +onlyGivenNames z); try (refine Kept.have p v z ?_ ?_; on_goal 1 => unfold z; on_goal 2 => (try clear_value z)))
    | apply State.modMd_kept | apply State.countReserved_kept | apply State.led_kept | apply State.modSeq_kept
    | apply State.startXfer_kept | refine Kept.ite ?_ ?_ | split

theorem execMediaRequestIssue_kept {a1 a2} (h : Kept p v s) : KeptOut p v (execMediaRequestIssue a1 a2 s) :=
  KeptOut.mk_next (State.issueReq_kept h)

theorem State.creditGrant_kept {a1 a2} (h : Kept p v s) : Kept p v (State.creditGrant s a1 a2) := by
  unfold State.creditGrant
  with_reducible repeat'
    first
    | assumption | intro _
    | ((fail_if_no_progress extract_lets +onlyGivenNames z); try (refine Kept.have p v z ?_ ?_; on_goal 1 => unfold z; on_goal 2 => (try clear_value z)))
    | apply State.led_kept | apply State.modMd_kept | refine Kept.ite ?_ ?_

theorem execCreditGrant_kept {a1 a2} (h : Kept p v s) : KeptOut p v (execCreditGrant a1 a2 s) := KeptOut.mk_next
  (State.creditGrant_kept h)

theorem State.modTag_kept {a1 a2 a3} (h : Kept p v s) : Kept p v (State.modTag s a1 a2 a3) := State.modMd_kept h

theorem State.deliver_kept {a1 a2 a3} (h : Kept p v s) : Kept p v (State.deliver s a1 a2 a3) := by
  unfold State.deliver
  with_reducible repeat' first | assumption | apply State.store_kept | apply State.modGal_kept | split

theorem State.readBeat_kept {a1 a2 a3 a4} (h : Kept p v s) : Kept p v (State.readBeat s a1 a2 a3 a4) := by
  unfold State.readBeat
  with_reducible repeat'
    first
    | assumption | intro _
    | ((fail_if_no_progress extract_lets +onlyGivenNames z); try (refine Kept.have p v z ?_ ?_; on_goal 1 => unfold z; on_goal 2 => (try clear_value z)))
    | apply State.modMd_kept | apply State.modTag_kept | apply State.deliver_kept | refine Kept.ite ?_ ?_ | split

theorem execReadBeat_kept {a1 a2 a3 a4} (h : Kept p v s) : KeptOut p v (execReadBeat a1 a2 a3 a4 s) := KeptOut.mk_next
  (State.readBeat_kept h)

theorem State.modIssued_kept {a1 a2 a3} (h : Kept p v s) : Kept p v (State.modIssued s a1 a2 a3) := by
  unfold State.modIssued
  with_reducible repeat'
    first
    | assumption
    | ((fail_if_no_progress extract_lets +onlyGivenNames z); try (refine Kept.have p v z ?_ ?_; on_goal 1 => unfold z; on_goal 2 => (try clear_value z)))
    | apply State.modMd_kept

theorem State.writeBeat_kept {g} (h : Kept p v s) : Kept p v (s.writeBeat g) := by
  unfold State.writeBeat
  extract_lets m
  refine Kept.ite (fun _ => h) fun _ => ?_
  split
  · exact h
  · split
    · exact h
    · extract_lets a ue z w y
      have hz : Kept p v z := by
        unfold z
        split
        · exact State.eccRead_kept h
        · exact h
      have hw : Kept p v w := State.modIssued_kept hz
      clear_value w
      exact State.led_kept (State.modMd_kept (Kept.ite (fun _ => Kept.updMem hw (fun k => Memory.wf_writeBytes k ..) rfl) fun _ => hw))

theorem execWriteBeat_kept {a1} (h : Kept p v s) : KeptOut p v (execWriteBeat a1 s) := KeptOut.mk_next
  (State.writeBeat_kept h)

theorem State.chunkAnswered_kept {a1 a2 a3} (h : Kept p v s) : Kept p v (State.chunkAnswered s a1 a2 a3) := by
  unfold State.chunkAnswered
  with_reducible repeat'
    first
    | assumption
    | ((fail_if_no_progress extract_lets +onlyGivenNames z); try (refine Kept.have p v z ?_ ?_; on_goal 1 => unfold z; on_goal 2 => (try clear_value z)))
    | apply State.modSeq_kept | split

theorem State.pushRsp_kept {a1 a2} (h : Kept p v s) : Kept p v (State.pushRsp s a1 a2) := by
  unfold State.pushRsp
  with_reducible repeat'
    first
    | assumption | intro _
    | ((fail_if_no_progress extract_lets +onlyGivenNames z); try (refine Kept.have p v z ?_ ?_; on_goal 1 => unfold z; on_goal 2 => (try clear_value z)))
    | apply State.modSeq_kept | refine Kept.ite ?_ ?_ | split

theorem State.resolve_kept {a1 a2 a3 a4} (h : Kept p v s) : Kept p v (State.resolve s a1 a2 a3 a4) := by
  unfold State.resolve
  with_reducible repeat'
    first
    | assumption
    | ((fail_if_no_progress extract_lets +onlyGivenNames z); try (refine Kept.have p v z ?_ ?_; on_goal 1 => unfold z; on_goal 2 => (try clear_value z)))
    | apply State.modGal_kept | apply State.partDone_kept | apply State.resolveBound_kept
    | apply State.chunkAnswered_kept | split

theorem State.mdproto_kept {a1 a2 a3} (h : Kept p v s) : Kept p v (State.mdproto s a1 a2 a3) := State.record_kept h

theorem State.mediaResponse_kept {a1 a2 a3 a4} (h : Kept p v s) : Kept p v (State.mediaResponse s a1 a2 a3 a4) := by
  unfold State.mediaResponse
  with_reducible repeat'
    first
    | assumption | intro _
    | ((fail_if_no_progress extract_lets +onlyGivenNames z); try (refine Kept.have p v z ?_ ?_; on_goal 1 => unfold z; on_goal 2 => (try clear_value z)))
    | apply State.mdproto_kept | apply State.modMd_kept | apply State.countReleased_kept | apply State.led_kept
    | apply State.modSeq_kept | apply State.releaseOverlap_kept | apply State.resolve_kept | apply State.pushRsp_kept
    | (fail_if_no_progress refine Kept.upd ?_ rfl) | refine Kept.ite ?_ ?_ | split

theorem execMediaResponse_kept {a1 a2 a3 a4} (h : Kept p v s) : KeptOut p v (execMediaResponse a1 a2 a3 a4 s) :=
  KeptOut.mk_next (State.mediaResponse_kept h)

theorem State.mdTimeoutRecord_kept {a1 a2 a3 a4} (h : Kept p v s) : Kept p v (State.mdTimeoutRecord s a1 a2 a3 a4) :=
  State.record_kept h

theorem State.mpTimeout_kept {a1 a2 a3 a4 a5} (h : Kept p v s) : Kept p v (State.mpTimeout s a1 a2 a3 a4 a5) := by
  unfold State.mpTimeout
  with_reducible repeat'
    first
    | assumption | intro _
    | ((fail_if_no_progress extract_lets +onlyGivenNames z); try (refine Kept.have p v z ?_ ?_; on_goal 1 => unfold z; on_goal 2 => (try clear_value z)))
    | apply State.mdTimeoutRecord_kept | apply State.modMd_kept | apply State.mpIssue_kept | refine Kept.ite ?_ ?_

theorem State.mediaTimeout_kept {a1 a2} (h : Kept p v s) : Kept p v (State.mediaTimeout s a1 a2) := by
  unfold State.mediaTimeout
  with_reducible repeat'
    first
    | assumption | intro _
    | ((fail_if_no_progress extract_lets +onlyGivenNames z); try (refine Kept.have p v z ?_ ?_; on_goal 1 => unfold z; on_goal 2 => (try clear_value z)))
    | apply State.modMd_kept | apply State.countReleased_kept | apply State.modTag_kept
    | apply State.mdTimeoutRecord_kept | apply State.resolve_kept | apply State.pushRsp_kept | refine Kept.ite ?_ ?_
    | split

theorem execMediaTimeout_kept {a1 a2} (h : Kept p v s) : KeptOut p v (execMediaTimeout a1 a2 s) := KeptOut.mk_next
  (State.mediaTimeout_kept h)

theorem State.retract_kept {a1 a2} (h : Kept p v s) : Kept p v (State.retract s a1 a2) := by
  unfold State.retract
  with_reducible repeat'
    first
    | assumption | intro _
    | ((fail_if_no_progress extract_lets +onlyGivenNames z); try (refine Kept.have p v z ?_ ?_; on_goal 1 => unfold z; on_goal 2 => (try clear_value z)))
    | apply State.each_kept | apply State.partDone_kept | apply State.modMd_kept | apply State.countReleased_kept
    | split

theorem State.retractLines_kept {a1 a2} (h : Kept p v s) : Kept p v (State.retractLines s a1 a2) := by
  unfold State.retractLines
  with_reducible repeat'
    first
    | assumption | intro _
    | ((fail_if_no_progress extract_lets +onlyGivenNames z); try (refine Kept.have p v z ?_ ?_; on_goal 1 => unfold z; on_goal 2 => (try clear_value z)))
    | apply State.each_kept | apply State.freeLine_kept | apply State.partDone_kept | refine Kept.ite ?_ ?_ | split

/-! ### RunAhead -/

theorem State.raStart_kept {a1} (h : Kept p v s) : Kept p v (State.raStart s a1) := by
  unfold State.raStart
  with_reducible repeat'
    first
    | assumption | intro _
    | ((fail_if_no_progress extract_lets +onlyGivenNames z); try (refine Kept.have p v z ?_ ?_; on_goal 1 => unfold z; on_goal 2 => (try clear_value z)))
    | apply State.modSeq_kept | refine Kept.ite ?_ ?_

theorem execRunAheadStart_kept {a1} (h : Kept p v s) : KeptOut p v (execRunAheadStart a1 s) := KeptOut.mk_next
  (State.raStart_kept h)

theorem State.shadowRead_kept {a1 a2 a3 a4 a5 a6} (h : Kept p v s) : KeptOptFst p v (State.shadowRead s a1 a2 a3 a4 a5 a6) := by
  unfold State.shadowRead
  with_reducible repeat'
    first
    | assumption | apply KeptOptFst.mk_some | exact KeptOptFst.none | apply State.memRead_kept
    | refine KeptAcc.of_ok ?_ (by assumption) | split

theorem State.shadowLoad_kept {a1 a2 a3 a4 a5} (h : Kept p v s) : KeptOptFst p v (State.shadowLoad s a1 a2 a3 a4 a5) := by
  unfold State.shadowLoad
  with_reducible repeat' first | assumption | exact KeptOptFst.none | apply State.shadowRead_kept | split

theorem State.shadowFetch_kept {a1 a2 a3} (h : Kept p v s) : KeptShadow p v (State.shadowFetch s a1 a2 a3) := by
  unfold State.shadowFetch
  with_reducible repeat'
    first
    | assumption
    | ((fail_if_no_progress extract_lets +onlyGivenNames z); try (refine Kept.have p v z ?_ ?_; on_goal 1 => unfold z; on_goal 2 => (try clear_value z)))
    | apply KeptShadow.mk_on | exact KeptShadow.mk_stop | apply State.modGal_kept | apply State.addReq_kept | split

theorem State.shadowRun_kept {a1 a2 a3} (h : Kept p v s) : KeptShadow p v (State.shadowRun s a1 a2 a3) := by
  unfold State.shadowRun
  with_reducible repeat'
    first
    | assumption
    | ((fail_if_no_progress extract_lets +onlyGivenNames z); try (refine Kept.have p v z ?_ ?_; on_goal 1 => unfold z; on_goal 2 => (try clear_value z)))
    | apply KeptShadow.mk_on | exact KeptShadow.mk_stop | apply State.shadowLoad_kept | apply State.shadowFetch_kept
    | refine KeptOptFst.of_some ?_ (by assumption) | split | dsimp -zeta +zetaDelta only

theorem State.raEnd_kept {a1} (h : Kept p v s) : Kept p v (State.raEnd s a1) := State.modSeq_kept h

theorem State.shadowCycles_kept {a1 a2} (h : Kept p v s) : Kept p v (State.shadowCycles s a1 a2) := by
  unfold State.shadowCycles
  with_reducible repeat' first | assumption | apply State.cycle_kept | apply State.routine_kept | split

theorem State.shadowStep_kept {a1 a2} (h : Kept p v s) : Kept p v (State.shadowStep s a1 a2) := by
  unfold State.shadowStep
  with_reducible repeat'
    first
    | assumption | intro _
    | ((fail_if_no_progress extract_lets +onlyGivenNames z); try (refine Kept.have p v z ?_ ?_; on_goal 1 => unfold z; on_goal 2 => (try clear_value z)))
    | apply State.raEnd_kept | apply State.shadowRead_kept | apply State.shadowRun_kept
    | apply State.shadowCycles_kept | apply State.modSeq_kept | refine KeptOptFst.of_some ?_ (by assumption)
    | refine KeptShadow.of_on ?_ (by assumption) | refine Kept.ite ?_ ?_ | split

theorem execShadowInstruction_kept {a1 a2} (h : Kept p v s) : KeptOut p v (execShadowInstruction a1 a2 s) :=
  KeptOut.mk_next (State.shadowStep_kept h)

theorem State.lineAge_kept {a1 a2} (h : Kept p v s) : Kept p v (State.lineAge s a1 a2) := by
  unfold State.lineAge
  with_reducible repeat'
    first
    | assumption | intro _
    | ((fail_if_no_progress extract_lets +onlyGivenNames z); try (refine Kept.have p v z ?_ ?_; on_goal 1 => unfold z; on_goal 2 => (try clear_value z)))
    | apply State.modSeq_kept | apply State.freeLine_kept | refine Kept.ite ?_ ?_

theorem execLineAgeExpiry_kept {a1 a2} (h : Kept p v s) : KeptOut p v (execLineAgeExpiry a1 a2 s) := KeptOut.mk_next
  (State.lineAge_kept h)

end Sys2Proof.Machine
end

