-- ==== Sys2Proof/Laws/KeptUnits.lean ====
section
/-!
SUPPORT. What keeps both memories, the queue and the configuration: the boundary services, the plant, the galleries, the ledger, control stores and scratch. One lemma for each operation, named after
it, for the provers to cite: the outcome keeps where the state it starts from does.
-/

namespace Sys2Proof.Machine

open Sys2Proof

variable {p : List Instr} {v : Variant} {s t : State}

set_option linter.unusedTactic false
set_option linter.unreachableTactic false

/-! ### Router -/

theorem State.publish_kept {a1 a2} (h : Kept p v s) : Kept p v (State.publish s a1 a2) := by
  unfold State.publish
  with_reducible repeat'
    first
    | assumption | intro _ | apply State.fresh_kept | (fail_if_no_progress refine Kept.upd ?_ rfl)
    | refine Kept.ite ?_ ?_

theorem State.slotArrive_kept {a1 a2 a3} (h : Kept p v s) : Kept p v (State.slotArrive s a1 a2 a3) := by
  unfold State.slotArrive
  with_reducible repeat'
    first
    | assumption | intro _
    | ((fail_if_no_progress extract_lets +onlyGivenNames z); try (refine Kept.have p v z ?_ ?_; on_goal 1 => unfold z; on_goal 2 => (try clear_value z)))
    | apply State.modSeq_kept | apply State.irq_kept | refine Kept.ite ?_ ?_

theorem State.evDrop_kept {a1} (h : Kept p v s) : Kept p v (State.evDrop s a1) := by
  unfold State.evDrop
  with_reducible repeat'
    first
    | assumption
    | ((fail_if_no_progress extract_lets +onlyGivenNames z); try (refine Kept.have p v z ?_ ?_; on_goal 1 => unfold z; on_goal 2 => (try clear_value z)))
    | (fail_if_no_progress refine Kept.upd ?_ rfl)

theorem State.modTimer_kept {a1 a2 a3} (h : Kept p v s) : Kept p v (State.modTimer s a1 a2 a3) := State.modGal_kept h

theorem State.evDeliver_kept {a1 a2} (h : Kept p v s) : Kept p v (State.evDeliver s a1 a2) := by
  unfold State.evDeliver
  with_reducible repeat'
    first
    | assumption | intro _
    | ((fail_if_no_progress extract_lets +onlyGivenNames z); try (refine Kept.have p v z ?_ ?_; on_goal 1 => unfold z; on_goal 2 => (try clear_value z)))
    | apply State.slotArrive_kept | apply State.evDrop_kept | apply State.modTimer_kept
    | (fail_if_no_progress refine Kept.upd ?_ rfl) | refine Kept.ite ?_ ?_ | split

/-! ### Reply -/

theorem State.outbound_kept {m a2 a3 a4} (h : Kept p v s) : Kept p v (s.outbound m a2 a3 a4) := by
  unfold State.outbound
  extract_lets b head bytes mb
  refine Kept.updMb h fun k => ?_
  have e : bytes.wf = true := Memory.wf_writeBytes k _ _
  clear_value bytes
  exact e

theorem State.post_kept {a1 a2 a3 a4} (h : Kept p v s) : Kept p v (State.post s a1 a2 a3 a4) := by
  unfold State.post
  with_reducible repeat'
    first
    | assumption | intro _
    | ((fail_if_no_progress extract_lets +onlyGivenNames z); try (refine Kept.have p v z ?_ ?_; on_goal 1 => unfold z; on_goal 2 => (try clear_value z)))
    | apply State.outbound_kept | apply State.hirq_kept | (fail_if_no_progress refine Kept.upd ?_ rfl)
    | refine Kept.ite ?_ ?_

theorem State.answerFaulty_kept (h : Kept p v s) : Kept p v s.answerFaulty := by
  unfold State.answerFaulty
  generalize s.mb.queue = l
  induction l generalizing s with
  | nil => exact h
  | cons m l ih =>
    refine ih (Kept.ite (fun _ => ?_) fun _ => h)
    split
    · exact State.post_kept h
    · exact h

theorem State.reply_kept {a1 a2 a3 a4} (h : Kept p v s) : Kept p v (State.reply s a1 a2 a3 a4) :=
  State.answerFaulty_kept (State.post_kept h)

theorem State.replyTo_kept {a1 a2 a3 a4} (h : Kept p v s) : Kept p v (State.replyTo s a1 a2 a3 a4) := by
  unfold State.replyTo
  with_reducible repeat' first | assumption | apply State.reply_kept | split

/-! ### Boundary -/

theorem State.toBoundary_kept {a1 a2} (h : Kept p v s) : KeptOpt p v (State.toBoundary s a1 a2) := by
  unfold State.toBoundary
  with_reducible repeat'
    first
    | assumption
    | ((fail_if_no_progress extract_lets +onlyGivenNames z); try (refine Kept.have p v z ?_ ?_; on_goal 1 => unfold z; on_goal 2 => (try clear_value z)))
    | apply KeptOpt.mk_some | exact KeptOpt.none | apply State.modSeq_kept | apply State.routine_kept
    | apply State.freeChunks_kept | apply State.abandon_kept | apply State.leaveLong_kept | split

theorem State.fptrap_kept {a1} (h : Kept p v s) : Kept p v (State.fptrap s a1) := by
  unfold State.fptrap
  with_reducible repeat'
    first
    | assumption
    | ((fail_if_no_progress extract_lets +onlyGivenNames z); try (refine Kept.have p v z ?_ ?_; on_goal 1 => unfold z; on_goal 2 => (try clear_value z)))
    | apply State.enter_kept

theorem State.serve_kept {a1 a2 a3 f4} (h : Kept p v s) (hf4 : ∀ y0, Kept p v y0 → Kept p v (f4 y0)) : Kept p v (State.serve s a1 a2 a3 f4) := by
  unfold State.serve
  with_reducible repeat'
    first
    | assumption | intro _ | apply State.toBoundary_kept | apply State.landAll_kept | apply State.fptrap_kept
    | refine hf4 _ ?_ | refine KeptOpt.of_some ?_ (by assumption) | refine Kept.ite ?_ ?_ | split

theorem execFptrapEntry_kept {a1} (h : Kept p v s) : KeptOut p v (execFptrapEntry a1 s) := by
  unfold execFptrapEntry
  with_reducible repeat'
    first
    | assumption | intro _ | apply KeptOut.mk_next | apply State.serve_kept | apply State.fptrap_kept

theorem State.squeezeCheck_kept {a1} (h : Kept p v s) : Kept p v (State.squeezeCheck s a1) := by
  unfold State.squeezeCheck
  with_reducible repeat'
    first
    | assumption | intro _
    | ((fail_if_no_progress extract_lets +onlyGivenNames z); try (refine Kept.have p v z ?_ ?_; on_goal 1 => unfold z; on_goal 2 => (try clear_value z)))
    | apply State.modGal_kept | apply State.replyTo_kept | refine Kept.ite ?_ ?_ | split

theorem State.retractCtx_kept {a1 a2} (h : Kept p v s) : Kept p v (State.retractCtx s a1 a2) := by
  unfold State.retractCtx
  with_reducible repeat'
    first
    | assumption
    | ((fail_if_no_progress extract_lets +onlyGivenNames z); try (refine Kept.have p v z ?_ ?_; on_goal 1 => unfold z; on_goal 2 => (try clear_value z)))
    | apply State.retract_kept | apply State.retractLines_kept | apply State.releaseLines_kept

theorem State.freeCtx_kept {a1} (h : Kept p v s) : Kept p v (State.freeCtx s a1) := State.setCtxFlag_kept
  (State.setCtxFlag_kept (State.setCtxState_kept h))

theorem State.closeReply_kept {a1} (h : Kept p v s) : Kept p v (State.closeReply s a1) := by
  unfold State.closeReply
  with_reducible repeat'
    first
    | assumption | intro _
    | ((fail_if_no_progress extract_lets +onlyGivenNames z); try (refine Kept.have p v z ?_ ?_; on_goal 1 => unfold z; on_goal 2 => (try clear_value z)))
    | apply State.each_kept | apply State.reply_kept | (fail_if_no_progress refine Kept.upd ?_ rfl)

theorem State.preempt_kept {a1} (h : Kept p v s) : Kept p v (State.preempt s a1) := by
  unfold State.preempt
  with_reducible repeat'
    first
    | assumption
    | ((fail_if_no_progress extract_lets +onlyGivenNames z); try (refine Kept.have p v z ?_ ?_; on_goal 1 => unfold z; on_goal 2 => (try clear_value z)))
    | apply State.retractCtx_kept | apply State.switchOut_kept | apply State.routine_kept
    | apply State.squeezeCheck_kept | apply State.modGal_kept | (fail_if_no_progress refine Kept.upd ?_ rfl)
    | refine KeptFst.of_pair ?_ (by assumption) | split

theorem State.killBound_kept {a1} (h : Kept p v s) : Kept p v (State.killBound s a1) := by
  unfold State.killBound
  with_reducible repeat'
    first
    | assumption
    | ((fail_if_no_progress extract_lets +onlyGivenNames z); try (refine Kept.have p v z ?_ ?_; on_goal 1 => unfold z; on_goal 2 => (try clear_value z)))
    | apply State.breakLock_kept | apply State.landAll_kept | apply State.retractCtx_kept
    | apply State.dropRunning_kept | apply State.modSeq_kept | apply State.squeezeCheck_kept
    | apply State.closeReply_kept | apply State.freeCtx_kept | apply State.closeCtxSession_kept
    | (fail_if_no_progress refine Kept.upd ?_ rfl)

theorem State.unbindNow_kept {a1} (h : Kept p v s) : Kept p v (State.unbindNow s a1) := by
  unfold State.unbindNow
  with_reducible repeat'
    first
    | assumption
    | ((fail_if_no_progress extract_lets +onlyGivenNames z); try (refine Kept.have p v z ?_ ?_; on_goal 1 => unfold z; on_goal 2 => (try clear_value z)))
    | apply State.modSeq_kept | apply State.preempt_kept | apply State.killBound_kept | split
    | dsimp -zeta +zetaDelta only

theorem execUnbindRequest_kept {a1} (h : Kept p v s) : KeptOut p v (execUnbindRequest a1 s) := by
  unfold execUnbindRequest
  with_reducible repeat'
    first
    | assumption | intro _ | apply KeptOut.mk_next | apply State.serve_kept | apply State.unbindNow_kept

theorem State.haltPacket_kept {a1} (h : Kept p v s) : Kept p v (State.haltPacket s a1) := by
  unfold State.haltPacket
  with_reducible repeat'
    first
    | assumption
    | ((fail_if_no_progress extract_lets +onlyGivenNames z); try (refine Kept.have p v z ?_ ?_; on_goal 1 => unfold z; on_goal 2 => (try clear_value z)))
    | apply State.seqPacket_kept

theorem State.stepReply_kept {a1} (h : Kept p v s) : Kept p v (State.stepReply s a1) := by
  unfold State.stepReply
  with_reducible repeat'
    first
    | assumption
    | ((fail_if_no_progress extract_lets +onlyGivenNames z); try (refine Kept.have p v z ?_ ?_; on_goal 1 => unfold z; on_goal 2 => (try clear_value z)))
    | apply State.modSeq_kept | apply State.reply_kept | (fail_if_no_progress refine Kept.upd ?_ rfl) | split

theorem State.haltSeq_kept {a1} (h : Kept p v s) : Kept p v (State.haltSeq s a1) := by
  unfold State.haltSeq
  with_reducible repeat'
    first
    | assumption
    | ((fail_if_no_progress extract_lets +onlyGivenNames z); try (refine Kept.have p v z ?_ ?_; on_goal 1 => unfold z; on_goal 2 => (try clear_value z)))
    | apply State.breakLock_kept | apply State.landAll_kept | apply State.modSeq_kept | apply State.haltPacket_kept
    | apply State.fireRopes_kept | apply State.stepReply_kept

theorem execDebugHalt_kept {a1} (h : Kept p v s) : KeptOut p v (execDebugHalt a1 s) := by
  unfold execDebugHalt
  with_reducible repeat'
    first
    | assumption | intro _ | apply KeptOut.mk_next | apply State.serve_kept | apply State.haltSeq_kept

theorem execDeferredHaltForced_kept {a1} (h : Kept p v s) : KeptOut p v (execDeferredHaltForced a1 s) := by
  unfold execDeferredHaltForced
  with_reducible repeat'
    first
    | assumption | intro _ | apply KeptOut.mk_next | apply State.serve_kept | apply State.haltSeq_kept
    | refine Kept.ite ?_ ?_

theorem State.park_kept {a1} (h : Kept p v s) : Kept p v (State.park s a1) := by
  unfold State.park
  with_reducible repeat'
    first
    | assumption | intro _
    | ((fail_if_no_progress extract_lets +onlyGivenNames z); try (refine Kept.have p v z ?_ ?_; on_goal 1 => unfold z; on_goal 2 => (try clear_value z)))
    | apply State.breakLock_kept | apply State.landAll_kept | apply State.switchTo_kept | apply State.ctxPacket_kept
    | apply State.modSeq_kept | refine Kept.ite ?_ ?_

theorem execTickYield_kept {a1} (h : Kept p v s) : KeptOut p v (execTickYield a1 s) := by
  unfold execTickYield
  with_reducible repeat'
    first
    | assumption | intro _ | apply KeptOut.mk_next | apply State.serve_kept | apply State.park_kept

theorem State.quantumExpiry_kept {a1} (h : Kept p v s) : Kept p v (State.quantumExpiry s a1) := by
  unfold State.quantumExpiry
  with_reducible repeat'
    first
    | assumption | intro _
    | ((fail_if_no_progress extract_lets +onlyGivenNames z); try (refine Kept.have p v z ?_ ?_; on_goal 1 => unfold z; on_goal 2 => (try clear_value z)))
    | apply State.modSeq_kept | refine Kept.ite ?_ ?_ | split

theorem execQuantumExpiry_kept {a1} (h : Kept p v s) : KeptOut p v (execQuantumExpiry a1 s) := KeptOut.mk_next
  (State.quantumExpiry_kept h)

theorem State.interrupt_kept {a1} (h : Kept p v s) : Kept p v (State.interrupt s a1) := by
  unfold State.interrupt
  with_reducible repeat'
    first
    | assumption
    | ((fail_if_no_progress extract_lets +onlyGivenNames z); try (refine Kept.have p v z ?_ ?_; on_goal 1 => unfold z; on_goal 2 => (try clear_value z)))
    | apply State.enter_kept | split

theorem execInterruptEntry_kept {a1} (h : Kept p v s) : KeptOut p v (execInterruptEntry a1 s) := by
  unfold execInterruptEntry
  with_reducible repeat'
    first
    | assumption | intro _ | apply KeptOut.mk_next | apply State.serve_kept | apply State.interrupt_kept

theorem State.tickAck_kept {a1 a2} (h : Kept p v s) : Kept p v (State.tickAck s a1 a2) := by
  unfold State.tickAck
  with_reducible repeat'
    first
    | assumption | intro _
    | ((fail_if_no_progress extract_lets +onlyGivenNames z); try (refine Kept.have p v z ?_ ?_; on_goal 1 => unfold z; on_goal 2 => (try clear_value z)))
    | apply State.modSeq_kept | apply State.switchTo_kept | apply State.idleBind_kept | refine Kept.ite ?_ ?_

theorem execTickAcknowledgement_kept {a1 a2} (h : Kept p v s) : KeptOut p v (execTickAcknowledgement a1 a2 s) := by
  unfold execTickAcknowledgement
  with_reducible repeat'
    first
    | assumption | intro _ | apply KeptOut.mk_next | apply State.serve_kept | apply State.tickAck_kept

theorem execCycleBudgetExhausted_kept {a1} (h : Kept p v s) : KeptOut p v (execCycleBudgetExhausted a1 s) := by
  unfold execCycleBudgetExhausted
  with_reducible repeat'
    first
    | assumption | intro _ | apply KeptOut.mk_next | apply State.modSeq_kept | refine Kept.ite ?_ ?_

theorem State.budgetStall_kept {a1} (h : Kept p v s) : Kept p v (State.budgetStall s a1) := by
  unfold State.budgetStall
  with_reducible repeat'
    first
    | assumption | intro _
    | ((fail_if_no_progress extract_lets +onlyGivenNames z); try (refine Kept.have p v z ?_ ?_; on_goal 1 => unfold z; on_goal 2 => (try clear_value z)))
    | apply State.modSeq_kept | refine Kept.ite ?_ ?_

theorem execBudgetStall_kept {a1} (h : Kept p v s) : KeptOut p v (execBudgetStall a1 s) := KeptOut.mk_next
  (State.budgetStall_kept h)

theorem execSequencerWatchdogExpiry_kept {a1} (h : Kept p v s) : KeptOut p v (execSequencerWatchdogExpiry a1 s) := by
  unfold execSequencerWatchdogExpiry
  with_reducible repeat'
    first
    | assumption | intro _ | apply KeptOut.mk_next | apply State.thirdFault_kept | refine Kept.ite ?_ ?_

theorem execRetryRepeat_kept {a1} (h : Kept p v s) : KeptOut p v (execRetryRepeat a1 s) := by
  unfold execRetryRepeat
  with_reducible repeat'
    first
    | assumption | intro _ | apply KeptOut.mk_next | apply State.waited_kept | apply State.modSeq_kept
    | refine Kept.ite ?_ ?_

/-! ### System -/

theorem State.holdFlags_kept {a1 a2 a3} (h : Kept p v s) : Kept p v (State.holdFlags s a1 a2 a3) := State.modSeq_kept
  h

theorem holdBody_kept {a1 a2} (h : Kept p v s) : KeptRes p v (holdBody a1 a2 s) := by
  unfold holdBody
  with_reducible repeat'
    first
    | assumption | intro _
    | ((fail_if_no_progress extract_lets +onlyGivenNames z); try (refine Kept.have p v z ?_ ?_; on_goal 1 => unfold z; on_goal 2 => (try clear_value z)))
    | apply KeptRes.mk_done | apply KeptRes.mk_exn | apply State.holdFlags_kept | apply State.load_kept
    | apply State.modSeq_kept | apply State.modRegs_kept | split

theorem execHold_kept {a1 a2} (h : Kept p v s) : KeptOut p v (execHold a1 a2 s) := by
  unfold execHold
  with_reducible repeat'
    first
    | assumption | intro _ | apply KeptOut.mk_next | apply runInstr_kept | apply holdBody_kept

theorem State.freed_kept {a1 a2} (h : Kept p v s) : Kept p v (State.freed s a1 a2) := State.modSeq_kept h

theorem freeBody_kept {a1 a2} (h : Kept p v s) : KeptRes p v (freeBody a1 a2 s) := by
  unfold freeBody
  with_reducible repeat'
    first
    | assumption | intro _
    | ((fail_if_no_progress extract_lets +onlyGivenNames z); try (refine Kept.have p v z ?_ ?_; on_goal 1 => unfold z; on_goal 2 => (try clear_value z)))
    | apply KeptRes.mk_done | apply KeptRes.mk_exn | apply State.storeSeg_kept | apply State.freed_kept | split

theorem execFree_kept {a1 a2} (h : Kept p v s) : KeptOut p v (execFree a1 a2 s) := by
  unfold execFree
  with_reducible repeat'
    first
    | assumption | intro _ | apply KeptOut.mk_next | apply runInstr_kept | apply freeBody_kept

theorem yieldBody_kept {a1} (h : Kept p v s) : KeptRes p v (yieldBody a1 s) := KeptRes.mk_wait (State.park_kept
  (State.modSeq_kept h))

theorem execYield_kept {a1} (h : Kept p v s) : KeptOut p v (execYield a1 s) := by
  unfold execYield
  with_reducible repeat'
    first
    | assumption | intro _ | apply KeptOut.mk_next | apply runInstr_kept | apply yieldBody_kept

theorem privBody_kept {a1 f2} (hf2 : ∀ y0, Kept p v y0 → KeptRes p v (f2 y0)) (h : Kept p v s) : KeptRes p v (privBody a1 f2 s) := by
  unfold privBody
  with_reducible repeat' first | assumption | apply KeptRes.mk_exn | refine hf2 _ ?_ | split

theorem wdogBody_kept {a1} (h : Kept p v s) : KeptRes p v (wdogBody a1 s) := KeptRes.mk_done (State.modSeq_kept h)

theorem execWdog_kept {a1} (h : Kept p v s) : KeptOut p v (execWdog a1 s) := by
  unfold execWdog
  with_reducible repeat'
    first
    | assumption | intro _ | apply KeptOut.mk_next | apply runInstr_kept | apply privBody_kept | apply wdogBody_kept

theorem State.stim_kept {a1 a2 a3} (h : Kept p v s) : Kept p v (State.stim s a1 a2 a3) := by
  unfold State.stim
  with_reducible repeat'
    first
    | assumption | intro _
    | ((fail_if_no_progress extract_lets +onlyGivenNames z); try (refine Kept.have p v z ?_ ?_; on_goal 1 => unfold z; on_goal 2 => (try clear_value z)))
    | apply State.seqPacket_kept | apply State.modSeq_kept | refine Kept.ite ?_ ?_

theorem stimBody_kept {a1 a2} (h : Kept p v s) : KeptRes p v (stimBody a1 a2 s) := by
  unfold stimBody
  with_reducible repeat'
    first
    | assumption | intro _ | apply KeptRes.mk_done | apply KeptRes.mk_exn | apply privBody_kept
    | apply State.stim_kept | split

theorem execStim_kept {a1 a2} (h : Kept p v s) : KeptOut p v (execStim a1 a2 s) := by
  unfold execStim
  with_reducible repeat'
    first
    | assumption | intro _ | apply KeptOut.mk_next | apply runInstr_kept | apply stimBody_kept

theorem execEvtPub_kept {a1 a2} (h : Kept p v s) : KeptOut p v (execEvtPub a1 a2 s) := by
  unfold execEvtPub
  with_reducible repeat'
    first
    | assumption | intro _ | apply KeptOut.mk_next | apply KeptRes.mk_done | apply runInstr_kept | apply privBody_kept
    | apply State.publish_kept

theorem evtTakeBody_kept {a1 a2} (h : Kept p v s) : KeptRes p v (evtTakeBody a1 a2 s) := by
  unfold evtTakeBody
  with_reducible repeat'
    first
    | assumption
    | ((fail_if_no_progress extract_lets +onlyGivenNames z); try (refine Kept.have p v z ?_ ?_; on_goal 1 => unfold z; on_goal 2 => (try clear_value z)))
    | apply KeptRes.mk_done | apply State.modRegs_kept | apply State.modSeq_kept

theorem execEvtTake_kept {a1 a2} (h : Kept p v s) : KeptOut p v (execEvtTake a1 a2 s) := by
  unfold execEvtTake
  with_reducible repeat'
    first
    | assumption | intro _ | apply KeptOut.mk_next | apply runInstr_kept | apply privBody_kept
    | apply evtTakeBody_kept

theorem evtCntBody_kept {a1 a2 a3} (h : Kept p v s) : KeptRes p v (evtCntBody a1 a2 a3 s) := by
  unfold evtCntBody
  with_reducible repeat'
    first
    | assumption
    | ((fail_if_no_progress extract_lets +onlyGivenNames z); try (refine Kept.have p v z ?_ ?_; on_goal 1 => unfold z; on_goal 2 => (try clear_value z)))
    | apply KeptRes.mk_done | apply State.modRegs_kept

theorem execEvtCnt_kept {a1 a2 a3} (h : Kept p v s) : KeptOut p v (execEvtCnt a1 a2 a3 s) := by
  unfold execEvtCnt
  with_reducible repeat'
    first
    | assumption | intro _ | apply KeptOut.mk_next | apply runInstr_kept | apply privBody_kept | apply evtCntBody_kept

theorem State.timerAck_kept {a1 a2} (h : Kept p v s) : Kept p v (State.timerAck s a1 a2) := State.modTimer_kept h

theorem State.waitRetire_kept {a1 a2} (h : Kept p v s) : Kept p v (State.waitRetire s a1 a2) := State.modSeq_kept h

theorem State.waitEnd_kept {a1} (h : Kept p v s) : Kept p v (State.waitEnd s a1) := by
  unfold State.waitEnd
  with_reducible repeat'
    first
    | assumption | intro _
    | ((fail_if_no_progress extract_lets +onlyGivenNames z); try (refine Kept.have p v z ?_ ?_; on_goal 1 => unfold z; on_goal 2 => (try clear_value z)))
    | apply State.waitRetire_kept | apply State.modSeq_kept | apply State.timerAck_kept | refine Kept.ite ?_ ?_
    | split

theorem waiteBody_kept {a1 a2} (h : Kept p v s) : KeptRes p v (waiteBody a1 a2 s) := KeptRes.mk_wait
  (State.waitEnd_kept (State.modSeq_kept h))

theorem execWaite_kept {a1 a2} (h : Kept p v s) : KeptOut p v (execWaite a1 a2 s) := by
  unfold execWaite
  with_reducible repeat'
    first
    | assumption | intro _ | apply KeptOut.mk_next | apply runInstr_kept | apply privBody_kept | apply waiteBody_kept

theorem waiteTBody_kept {a1 a2} (h : Kept p v s) : KeptRes p v (waiteTBody a1 a2 s) := by
  unfold waiteTBody
  with_reducible repeat'
    first
    | assumption | intro _ | apply KeptRes.mk_wait | apply KeptRes.mk_exn | apply privBody_kept
    | apply State.waitEnd_kept | apply State.modSeq_kept | split

theorem execWaiteT_kept {a1 a2} (h : Kept p v s) : KeptOut p v (execWaiteT a1 a2 s) := by
  unfold execWaiteT
  with_reducible repeat'
    first
    | assumption | intro _ | apply KeptOut.mk_next | apply runInstr_kept | apply waiteTBody_kept

theorem State.waitOver_kept {a1} (_h : Kept p v s) (h2 : Kept p v s2) : Kept p v (State.waitOver s s2 a1) := by
  unfold State.waitOver
  with_reducible repeat' first | assumption | intro _ | apply State.waited_kept | refine Kept.ite ?_ ?_

theorem execWaitEnd_kept {a1} (h : Kept p v s) : KeptOut p v (execWaitEnd a1 s) := by
  unfold execWaitEnd
  with_reducible repeat'
    first
    | assumption | apply KeptOut.mk_next | apply State.waitOver_kept | apply State.waitEnd_kept

theorem State.haltWake_kept {a1} (h : Kept p v s) : Kept p v (State.haltWake s a1) := by
  unfold State.haltWake
  with_reducible repeat'
    first
    | assumption | intro _
    | ((fail_if_no_progress extract_lets +onlyGivenNames z); try (refine Kept.have p v z ?_ ?_; on_goal 1 => unfold z; on_goal 2 => (try clear_value z)))
    | apply State.idleBind_kept | apply State.modSeq_kept | refine Kept.ite ?_ ?_

theorem haltBody_kept {a1} (h : Kept p v s) : KeptRes p v (haltBody a1 s) := KeptRes.mk_wait (State.haltWake_kept
  (State.modSeq_kept h))

theorem execHalt_kept {a1} (h : Kept p v s) : KeptOut p v (execHalt a1 s) := by
  unfold execHalt
  with_reducible repeat'
    first
    | assumption | intro _ | apply KeptOut.mk_next | apply runInstr_kept | apply privBody_kept | apply haltBody_kept

theorem execHaltWake_kept {a1} (h : Kept p v s) : KeptOut p v (execHaltWake a1 s) := by
  unfold execHaltWake
  with_reducible repeat'
    first
    | assumption | apply KeptOut.mk_next | apply State.waitOver_kept | apply State.haltWake_kept

theorem brkBody_kept {a1 a2} (h : Kept p v s) : KeptRes p v (brkBody a1 a2 s) := by
  unfold brkBody
  with_reducible repeat'
    first
    | assumption
    | ((fail_if_no_progress extract_lets +onlyGivenNames z); try (refine Kept.have p v z ?_ ?_; on_goal 1 => unfold z; on_goal 2 => (try clear_value z)))
    | apply KeptRes.mk_done | apply KeptRes.mk_entry | apply State.modSeq_kept | split

theorem execBrk_kept {a1 a2} (h : Kept p v s) : KeptOut p v (execBrk a1 a2 s) := by
  unfold execBrk
  with_reducible repeat'
    first
    | assumption | intro _ | apply KeptOut.mk_next | apply runInstr_kept | apply brkBody_kept

theorem setmlBody_kept {a1 a2} (h : Kept p v s) : KeptRes p v (setmlBody a1 a2 s) := by
  unfold setmlBody
  with_reducible repeat'
    first
    | assumption | intro _ | apply KeptRes.mk_done | apply KeptRes.mk_exn | apply privBody_kept
    | apply State.modRegs_kept | split

theorem execSetml_kept {a1 a2} (h : Kept p v s) : KeptOut p v (execSetml a1 a2 s) := by
  unfold execSetml
  with_reducible repeat'
    first
    | assumption | intro _ | apply KeptOut.mk_next | apply runInstr_kept | apply setmlBody_kept

/-! ### Tick -/

theorem State.setPlantWord_kept {a1 a2} (h : Kept p v s) : Kept p v (State.setPlantWord s a1 a2) := by
  unfold State.setPlantWord
  with_reducible repeat'
    first
    | assumption
    | ((fail_if_no_progress extract_lets +onlyGivenNames z); try (refine Kept.have p v z ?_ ?_; on_goal 1 => unfold z; on_goal 2 => (try clear_value z)))
    | (fail_if_no_progress refine Kept.upd ?_ rfl) | split

theorem State.writeHoldcfg_kept {a1} (h : Kept p v s) : Kept p v (State.writeHoldcfg s a1) := by
  unfold State.writeHoldcfg
  with_reducible repeat'
    first
    | assumption | intro _
    | ((fail_if_no_progress extract_lets +onlyGivenNames z); try (refine Kept.have p v z ?_ ?_; on_goal 1 => unfold z; on_goal 2 => (try clear_value z)))
    | apply State.each_kept | apply State.modMd_kept | apply State.countReleased_kept
    | (fail_if_no_progress refine Kept.upd ?_ rfl) | refine Kept.ite ?_ ?_

theorem State.tickErr_kept (h : Kept p v s) : Kept p v (State.tickErr s) := by
  unfold State.tickErr
  with_reducible repeat'
    first
    | assumption
    | ((fail_if_no_progress extract_lets +onlyGivenNames z); try (refine Kept.have p v z ?_ ?_; on_goal 1 => unfold z; on_goal 2 => (try clear_value z)))
    | (fail_if_no_progress refine Kept.upd ?_ rfl)

theorem State.fixPhases_kept (h : Kept p v s) : Kept p v (State.fixPhases s) := by
  unfold State.fixPhases
  with_reducible repeat'
    first
    | assumption | intro _ | apply State.each_kept | apply State.tickErr_kept | apply State.modGal_kept
    | refine Kept.ite ?_ ?_

theorem State.tickCfgEnd_kept {a1 a2 a3 a4} (h : Kept p v s) : Kept p v (State.tickCfgEnd s a1 a2 a3 a4) := by
  unfold State.tickCfgEnd
  with_reducible repeat'
    first
    | assumption | intro _
    | ((fail_if_no_progress extract_lets +onlyGivenNames z); try (refine Kept.have p v z ?_ ?_; on_goal 1 => unfold z; on_goal 2 => (try clear_value z)))
    | apply State.reply_kept | (fail_if_no_progress refine Kept.upd ?_ rfl) | refine Kept.ite ?_ ?_

theorem State.applyTickCfg_kept {a1} (h : Kept p v s) : Kept p v (State.applyTickCfg s a1) := by
  unfold State.applyTickCfg
  with_reducible repeat'
    first
    | assumption | intro _
    | ((fail_if_no_progress extract_lets +onlyGivenNames z); try (refine Kept.have p v z ?_ ?_; on_goal 1 => unfold z; on_goal 2 => (try clear_value z)))
    | apply State.each_kept | apply State.tickCfgEnd_kept | (fail_if_no_progress refine Kept.upd ?_ rfl)
    | refine Kept.ite ?_ ?_

theorem State.lengthen_kept {a1 a2 a3} (h : Kept p v s) : Kept p v (State.lengthen s a1 a2 a3) := by
  unfold State.lengthen
  with_reducible repeat'
    first
    | assumption
    | ((fail_if_no_progress extract_lets +onlyGivenNames z); try (refine Kept.have p v z ?_ ?_; on_goal 1 => unfold z; on_goal 2 => (try clear_value z)))
    | apply State.modGal_kept

theorem State.applyConfig_kept (h : Kept p v s) : Kept p v (State.applyConfig s) := by
  unfold State.applyConfig
  with_reducible repeat'
    first
    | assumption | intro _
    | ((fail_if_no_progress extract_lets +onlyGivenNames z); try (refine Kept.have p v z ?_ ?_; on_goal 1 => unfold z; on_goal 2 => (try clear_value z)))
    | apply State.each_kept | apply State.setPlantWord_kept | apply State.reply_kept | apply State.applyTickCfg_kept
    | apply State.modGal_kept | apply State.fixPhases_kept | apply State.lengthen_kept
    | (fail_if_no_progress refine Kept.upd ?_ rfl) | refine Kept.ite ?_ ?_ | split

theorem State.applyHold_kept {a1} (h : Kept p v s) : Kept p v (State.applyHold s a1) := by
  unfold State.applyHold
  with_reducible repeat'
    first
    | assumption | intro _
    | ((fail_if_no_progress extract_lets +onlyGivenNames z); try (refine Kept.have p v z ?_ ?_; on_goal 1 => unfold z; on_goal 2 => (try clear_value z)))
    | apply State.each_kept | apply State.writeHoldcfg_kept | apply State.reply_kept | split

theorem State.modelStep_kept {a1 a2} (h : Kept p v s) : Kept p v (State.modelStep s a1 a2) := by
  unfold State.modelStep
  with_reducible repeat'
    first
    | assumption
    | ((fail_if_no_progress extract_lets +onlyGivenNames z); try (refine Kept.have p v z ?_ ?_; on_goal 1 => unfold z; on_goal 2 => (try clear_value z)))
    | (fail_if_no_progress refine Kept.upd ?_ rfl)

theorem State.allowance_kept (h : Kept p v s) : Kept p v (State.allowance s) := by
  unfold State.allowance
  with_reducible repeat'
    first
    | assumption
    | ((fail_if_no_progress extract_lets +onlyGivenNames z); try (refine Kept.have p v z ?_ ?_; on_goal 1 => unfold z; on_goal 2 => (try clear_value z)))
    | (fail_if_no_progress refine Kept.upd ?_ rfl)

theorem State.judgeHold_kept (h : Kept p v s) : Kept p v (State.judgeHold s) := by
  unfold State.judgeHold
  with_reducible repeat'
    first
    | assumption | intro _
    | ((fail_if_no_progress extract_lets +onlyGivenNames z); try (refine Kept.have p v z ?_ ?_; on_goal 1 => unfold z; on_goal 2 => (try clear_value z)))
    | apply State.hirq_kept | (fail_if_no_progress refine Kept.upd ?_ rfl) | refine Kept.ite ?_ ?_

theorem State.ledgerSnapshot_kept (h : Kept p v s) : Kept p v (State.ledgerSnapshot s) := by
  unfold State.ledgerSnapshot
  with_reducible repeat'
    first
    | assumption
    | ((fail_if_no_progress extract_lets +onlyGivenNames z); try (refine Kept.have p v z ?_ ?_; on_goal 1 => unfold z; on_goal 2 => (try clear_value z)))
    | (fail_if_no_progress refine Kept.upd ?_ rfl)

theorem State.storeCorrected_kept {a1 a2 a3} (h : Kept p v s) : Kept p v (State.storeCorrected s a1 a2 a3) := by
  unfold State.storeCorrected
  with_reducible repeat'
    first
    | assumption | intro _
    | ((fail_if_no_progress extract_lets +onlyGivenNames z); try (refine Kept.have p v z ?_ ?_; on_goal 1 => unfold z; on_goal 2 => (try clear_value z)))
    | apply State.modSeq_kept | (fail_if_no_progress refine Kept.upd ?_ rfl) | refine Kept.ite ?_ ?_

theorem State.scrubRead_kept (h : Kept p v s) : Kept p v (State.scrubRead s) := by
  unfold State.scrubRead
  with_reducible repeat'
    first
    | assumption | intro _
    | ((fail_if_no_progress extract_lets +onlyGivenNames z); try (refine Kept.have p v z ?_ ?_; on_goal 1 => unfold z; on_goal 2 => (try clear_value z)))
    | apply State.each_kept | apply State.modSeq_kept | apply State.storeCorrected_kept
    | (fail_if_no_progress refine Kept.upd ?_ rfl) | refine Kept.ite ?_ ?_

theorem State.syncPacket_kept (h : Kept p v s) : Kept p v (State.syncPacket s) := by
  unfold State.syncPacket
  with_reducible repeat'
    first
    | assumption | intro _
    | ((fail_if_no_progress extract_lets +onlyGivenNames z); try (refine Kept.have p v z ?_ ?_; on_goal 1 => unfold z; on_goal 2 => (try clear_value z)))
    | apply State.packet_kept | refine Kept.ite ?_ ?_

theorem State.boundaryAt_kept {a1 a2} (h : Kept p v s) : Kept p v (State.boundaryAt s a1 a2) := by
  unfold State.boundaryAt
  with_reducible repeat'
    first
    | assumption
    | ((fail_if_no_progress extract_lets +onlyGivenNames z); try (refine Kept.have p v z ?_ ?_; on_goal 1 => unfold z; on_goal 2 => (try clear_value z)))
    | apply State.applyConfig_kept | apply State.modelStep_kept | apply State.allowance_kept
    | apply State.judgeHold_kept | apply State.applyHold_kept | apply State.scrubRead_kept
    | apply State.syncPacket_kept | apply State.ledgerSnapshot_kept | (fail_if_no_progress refine Kept.upd ?_ rfl)

theorem State.referenceTick_kept {a1 a2} (h : Kept p v s) : Kept p v (State.referenceTick s a1 a2) := by
  unfold State.referenceTick
  with_reducible repeat'
    first
    | assumption | intro _
    | ((fail_if_no_progress extract_lets +onlyGivenNames z); try (refine Kept.have p v z ?_ ?_; on_goal 1 => unfold z; on_goal 2 => (try clear_value z)))
    | apply State.boundaryAt_kept | (fail_if_no_progress refine Kept.upd ?_ rfl) | refine Kept.ite ?_ ?_

theorem execReferenceTick_kept {a1 a2} (h : Kept p v s) : KeptOut p v (execReferenceTick a1 a2 s) := KeptOut.mk_next
  (State.referenceTick_kept h)

theorem State.plantStale_kept (h : Kept p v s) : Kept p v (State.plantStale s) := by
  unfold State.plantStale
  with_reducible repeat'
    first
    | assumption | intro _
    | ((fail_if_no_progress extract_lets +onlyGivenNames z); try (refine Kept.have p v z ?_ ?_; on_goal 1 => unfold z; on_goal 2 => (try clear_value z)))
    | (fail_if_no_progress refine Kept.upd ?_ rfl) | refine Kept.ite ?_ ?_

theorem execPlantStale_kept (h : Kept p v s) : KeptOut p v (execPlantStale s) := KeptOut.mk_next
  (State.plantStale_kept h)

theorem State.temperatureSample_kept {a1 a2} (h : Kept p v s) : Kept p v (State.temperatureSample s a1 a2) := by
  unfold State.temperatureSample
  with_reducible repeat'
    first
    | assumption
    | ((fail_if_no_progress extract_lets +onlyGivenNames z); try (refine Kept.have p v z ?_ ?_; on_goal 1 => unfold z; on_goal 2 => (try clear_value z)))
    | (fail_if_no_progress refine Kept.upd ?_ rfl) | split

theorem execTemperatureSample_kept {a1 a2} (h : Kept p v s) : KeptOut p v (execTemperatureSample a1 a2 s) :=
  KeptOut.mk_next (State.temperatureSample_kept h)

theorem State.seqTick_kept {a1 a2 a3} (h : Kept p v s) : Kept p v (State.seqTick s a1 a2 a3) := by
  unfold State.seqTick
  with_reducible repeat'
    first
    | assumption | intro _
    | ((fail_if_no_progress extract_lets +onlyGivenNames z); try (refine Kept.have p v z ?_ ?_; on_goal 1 => unfold z; on_goal 2 => (try clear_value z)))
    | apply State.modSeq_kept | apply State.breakLock_kept | apply State.led_kept | apply State.irq_kept
    | apply State.idleBind_kept | refine Kept.ite ?_ ?_

theorem State.galleryTick_kept {a1} (h : Kept p v s) : Kept p v (State.galleryTick s a1) := by
  unfold State.galleryTick
  with_reducible repeat'
    first
    | assumption | intro _ | apply State.led_kept | apply State.modGal_kept | apply State.each_kept
    | apply State.seqTick_kept | refine Kept.ite ?_ ?_

theorem execTicknumlRead_kept (h : Kept p v s) : KeptOut p v (execTicknumlRead s) := by
  unfold execTicknumlRead
  with_reducible repeat'
    first
    | assumption
    | ((fail_if_no_progress extract_lets +onlyGivenNames z); try (refine Kept.have p v z ?_ ?_; on_goal 1 => unfold z; on_goal 2 => (try clear_value z)))
    | apply KeptOut.mk_next | (fail_if_no_progress refine Kept.upd ?_ rfl)

theorem execTickcfgWrite_kept {a1 a2} (h : Kept p v s) : KeptOut p v (execTickcfgWrite a1 a2 s) := by
  unfold execTickcfgWrite
  with_reducible repeat'
    first
    | assumption | intro _
    | ((fail_if_no_progress extract_lets +onlyGivenNames z); try (refine Kept.have p v z ?_ ?_; on_goal 1 => unfold z; on_goal 2 => (try clear_value z)))
    | apply KeptOut.mk_next | (fail_if_no_progress refine Kept.upd ?_ rfl) | refine Kept.ite ?_ ?_

theorem State.phaseWrite_kept {a1 a2} (h : Kept p v s) : Kept p v (State.phaseWrite s a1 a2) := by
  unfold State.phaseWrite
  with_reducible repeat'
    first
    | assumption
    | ((fail_if_no_progress extract_lets +onlyGivenNames z); try (refine Kept.have p v z ?_ ?_; on_goal 1 => unfold z; on_goal 2 => (try clear_value z)))
    | (fail_if_no_progress refine Kept.upd ?_ rfl)

theorem execPhaseWrite_kept {a1 a2} (h : Kept p v s) : KeptOut p v (execPhaseWrite a1 a2 s) := KeptOut.mk_next
  (State.phaseWrite_kept h)

/-! ### Timer -/

theorem State.tmrEdges_kept {a1} (h : Kept p v s) : Kept p v (State.tmrEdges s s2 a1) := by
  unfold State.tmrEdges
  with_reducible repeat'
    first
    | assumption | intro _ | apply State.each_kept | apply State.irq_kept | refine Kept.ite ?_ ?_

theorem State.timerMatched_kept {a1 a2} (h : Kept p v s) : Kept p v (State.timerMatched s a1 a2) := by
  unfold State.timerMatched
  with_reducible repeat'
    first
    | assumption | intro _
    | ((fail_if_no_progress extract_lets +onlyGivenNames z); try (refine Kept.have p v z ?_ ?_; on_goal 1 => unfold z; on_goal 2 => (try clear_value z)))
    | apply State.tmrEdges_kept | apply State.modTimer_kept | apply State.publish_kept | refine Kept.ite ?_ ?_

theorem State.timerMatch_kept {a1 a2} (h : Kept p v s) : Kept p v (State.timerMatch s a1 a2) := by
  unfold State.timerMatch
  with_reducible repeat' first | assumption | intro _ | apply State.timerMatched_kept | refine Kept.ite ?_ ?_

theorem execTimerMatch_kept {a1 a2} (h : Kept p v s) : KeptOut p v (execTimerMatch a1 a2 s) := KeptOut.mk_next
  (State.timerMatch_kept h)

theorem State.timerIncrement_kept {a1 a2} (h : Kept p v s) : Kept p v (State.timerIncrement s a1 a2) := by
  unfold State.timerIncrement
  with_reducible repeat'
    first
    | assumption | intro _ | apply State.modTimer_kept | apply State.timerMatch_kept | refine Kept.ite ?_ ?_

theorem execTimerIncrement_kept {a1 a2} (h : Kept p v s) : KeptOut p v (execTimerIncrement a1 a2 s) := KeptOut.mk_next
  (State.timerIncrement_kept h)

theorem State.timerCtl_kept {a1 a2 a3} (h : Kept p v s) : Kept p v (State.timerCtl s a1 a2 a3) := State.tmrEdges_kept
  (State.modTimer_kept h)

theorem execTimerCtlWrite_kept {a1 a2 a3} (h : Kept p v s) : KeptOut p v (execTimerCtlWrite a1 a2 a3 s) := by
  unfold execTimerCtlWrite
  with_reducible repeat'
    first
    | assumption | intro _ | apply KeptOut.mk_next | apply State.timerCtl_kept | refine Kept.ite ?_ ?_

theorem State.timerCount_kept {a1 a2 a3 a4} (h : Kept p v s) : Kept p v (State.timerCount s a1 a2 a3 a4) :=
  State.modTimer_kept h

theorem execTimerCountWrite_kept {a1 a2 a3 a4} (h : Kept p v s) : KeptOut p v (execTimerCountWrite a1 a2 a3 a4 s) := by
  unfold execTimerCountWrite
  with_reducible repeat'
    first
    | assumption | intro _ | apply KeptOut.mk_next | apply State.timerCount_kept | refine Kept.ite ?_ ?_

theorem State.timerCmp_kept {a1 a2 a3 a4} (h : Kept p v s) : Kept p v (State.timerCmp s a1 a2 a3 a4) :=
  State.timerMatch_kept (State.modTimer_kept (State.timerMatch_kept h))

theorem execTimerCmpWrite_kept {a1 a2 a3 a4} (h : Kept p v s) : KeptOut p v (execTimerCmpWrite a1 a2 a3 a4 s) := by
  unfold execTimerCmpWrite
  with_reducible repeat'
    first
    | assumption | intro _ | apply KeptOut.mk_next | apply State.timerCmp_kept | refine Kept.ite ?_ ?_

theorem State.answer_kept {a1} (h : Kept p v s) : Kept p v (State.answer s a1) := by
  unfold State.answer
  with_reducible repeat'
    first
    | assumption
    | ((fail_if_no_progress extract_lets +onlyGivenNames z); try (refine Kept.have p v z ?_ ?_; on_goal 1 => unfold z; on_goal 2 => (try clear_value z)))
    | (fail_if_no_progress refine Kept.upd ?_ rfl)

theorem execCapRead_kept {a1 a2} (h : Kept p v s) : KeptOut p v (execCapRead a1 a2 s) := by
  unfold execCapRead
  with_reducible repeat'
    first
    | assumption | intro _ | apply KeptOut.mk_next | apply State.modTimer_kept | apply State.answer_kept
    | refine Kept.ite ?_ ?_

theorem State.wakeTimers_kept {a1} (h : Kept p v s) : Kept p v (State.wakeTimers s a1) := by
  unfold State.wakeTimers
  with_reducible repeat'
    first
    | assumption | intro _
    | ((fail_if_no_progress extract_lets +onlyGivenNames z); try (refine Kept.have p v z ?_ ?_; on_goal 1 => unfold z; on_goal 2 => (try clear_value z)))
    | apply State.fresh_kept | apply State.each_kept | apply State.timerMatch_kept | apply State.tmrEdges_kept
    | apply State.modTimer_kept | apply State.publish_kept | refine Kept.ite ?_ ?_

/-! ### Events -/

theorem State.setConsumer_kept {a1 a2} (h : Kept p v s) : Kept p v (State.setConsumer s a1 a2) := by
  unfold State.setConsumer
  with_reducible repeat'
    first
    | assumption
    | ((fail_if_no_progress extract_lets +onlyGivenNames z); try (refine Kept.have p v z ?_ ?_; on_goal 1 => unfold z; on_goal 2 => (try clear_value z)))
    | apply State.modSeq_kept | (fail_if_no_progress refine Kept.upd ?_ rfl) | split

theorem State.chsubWrite_kept {a1 a2} (h : Kept p v s) : Kept p v (State.chsubWrite s a1 a2) := by
  unfold State.chsubWrite
  with_reducible repeat'
    first
    | assumption | intro _
    | ((fail_if_no_progress extract_lets +onlyGivenNames z); try (refine Kept.have p v z ?_ ?_; on_goal 1 => unfold z; on_goal 2 => (try clear_value z)))
    | apply State.setConsumer_kept | (fail_if_no_progress refine Kept.upd ?_ rfl) | refine Kept.ite ?_ ?_

theorem execChsubWrite_kept {a1 a2} (h : Kept p v s) : KeptOut p v (execChsubWrite a1 a2 s) := KeptOut.mk_next
  (State.chsubWrite_kept h)

theorem State.rewriteSlots_kept {a1} (h : Kept p v s) : Kept p v (State.rewriteSlots s a1) := by
  unfold State.rewriteSlots
  with_reducible repeat' first | assumption | intro _ | apply State.each_kept | apply State.modSeq_kept

theorem State.dropSlots_kept {a1} (h : Kept p v s) : Kept p v (State.dropSlots s a1) := by
  unfold State.dropSlots
  with_reducible repeat'
    first
    | assumption | intro _
    | ((fail_if_no_progress extract_lets +onlyGivenNames z); try (refine Kept.have p v z ?_ ?_; on_goal 1 => unfold z; on_goal 2 => (try clear_value z)))
    | apply State.each_kept | apply State.evDrop_kept | apply State.modSeq_kept

theorem State.modIn_kept {a1 a2} (h : Kept p v s) : Kept p v (State.modIn s a1 a2) := by
  unfold State.modIn
  with_reducible repeat'
    first
    | assumption
    | ((fail_if_no_progress extract_lets +onlyGivenNames z); try (refine Kept.have p v z ?_ ?_; on_goal 1 => unfold z; on_goal 2 => (try clear_value z)))
    | (fail_if_no_progress refine Kept.upd ?_ rfl)

theorem State.takeEdge_kept {a1} (h : Kept p v s) : Kept p v (State.takeEdge s a1) := by
  unfold State.takeEdge
  with_reducible repeat'
    first
    | assumption | intro _ | apply State.publish_kept | apply State.modIn_kept | refine Kept.ite ?_ ?_

theorem State.takeEdges_kept {i k} (h : Kept p v s) : Kept p v (s.takeEdges i k) := by
  induction k generalizing s with
  | zero => exact h
  | succ k ih => exact ih (State.takeEdge_kept h)

theorem State.inputEdge_kept {a1 a2} (h : Kept p v s) : Kept p v (State.inputEdge s a1 a2) := by
  unfold State.inputEdge
  with_reducible repeat'
    first
    | assumption | intro _
    | ((fail_if_no_progress extract_lets +onlyGivenNames z); try (refine Kept.have p v z ?_ ?_; on_goal 1 => unfold z; on_goal 2 => (try clear_value z)))
    | apply State.modIn_kept | apply State.takeEdges_kept | apply State.fresh_kept | apply State.record_kept
    | (fail_if_no_progress refine Kept.upd ?_ rfl) | refine Kept.ite ?_ ?_

theorem execEventInputEdge_kept {a1 a2} (h : Kept p v s) : KeptOut p v (execEventInputEdge a1 a2 s) := KeptOut.mk_next
  (State.inputEdge_kept h)

theorem State.inputStuck_kept {a1} (h : Kept p v s) : Kept p v (State.inputStuck s a1) := by
  unfold State.inputStuck
  with_reducible repeat'
    first
    | assumption | intro _
    | ((fail_if_no_progress extract_lets +onlyGivenNames z); try (refine Kept.have p v z ?_ ?_; on_goal 1 => unfold z; on_goal 2 => (try clear_value z)))
    | apply State.modIn_kept | apply State.record_kept | (fail_if_no_progress refine Kept.upd ?_ rfl)
    | refine Kept.ite ?_ ?_

theorem execEventInputStuck_kept {a1} (h : Kept p v s) : KeptOut p v (execEventInputStuck a1 s) := KeptOut.mk_next
  (State.inputStuck_kept h)

theorem State.countDelivery_kept {a1} (h : Kept p v s) : Kept p v (State.countDelivery s a1) := by
  unfold State.countDelivery
  with_reducible repeat'
    first
    | assumption | intro _
    | ((fail_if_no_progress extract_lets +onlyGivenNames z); try (refine Kept.have p v z ?_ ?_; on_goal 1 => unfold z; on_goal 2 => (try clear_value z)))
    | apply State.takeEdge_kept | apply State.evDeliver_kept | (fail_if_no_progress refine Kept.upd ?_ rfl)
    | refine Kept.ite ?_ ?_ | split

theorem execCountDelivery_kept {a1} (h : Kept p v s) : KeptOut p v (execCountDelivery a1 s) := KeptOut.mk_next
  (State.countDelivery_kept h)

theorem State.outputPulse_kept {a1} (h : Kept p v s) : Kept p v (State.outputPulse s a1) := by
  unfold State.outputPulse
  with_reducible repeat'
    first
    | assumption | intro _
    | ((fail_if_no_progress extract_lets +onlyGivenNames z); try (refine Kept.have p v z ?_ ?_; on_goal 1 => unfold z; on_goal 2 => (try clear_value z)))
    | (fail_if_no_progress refine Kept.upd ?_ rfl) | refine Kept.ite ?_ ?_

theorem execEventOutputPulse_kept {a1} (h : Kept p v s) : KeptOut p v (execEventOutputPulse a1 s) := KeptOut.mk_next
  (State.outputPulse_kept h)

theorem State.drivePins_kept {a1 a2} (h : Kept p v s) : Kept p v (State.drivePins s a1 a2) := by
  unfold State.drivePins
  with_reducible repeat'
    first
    | assumption
    | ((fail_if_no_progress extract_lets +onlyGivenNames z); try (refine Kept.have p v z ?_ ?_; on_goal 1 => unfold z; on_goal 2 => (try clear_value z)))
    | (fail_if_no_progress refine Kept.upd ?_ rfl)

theorem State.lutEval_kept {a1} (h : Kept p v s) : Kept p v (State.lutEval s a1) := by
  unfold State.lutEval
  with_reducible repeat'
    first
    | assumption | intro _
    | ((fail_if_no_progress extract_lets +onlyGivenNames z); try (refine Kept.have p v z ?_ ?_; on_goal 1 => unfold z; on_goal 2 => (try clear_value z)))
    | apply State.fresh_kept | apply State.drivePins_kept | apply State.publish_kept
    | (fail_if_no_progress refine Kept.upd ?_ rfl) | refine Kept.ite ?_ ?_

theorem execLutCellEvaluation_kept {a1} (h : Kept p v s) : KeptOut p v (execLutCellEvaluation a1 s) := KeptOut.mk_next
  (State.lutEval_kept h)

theorem State.lutctlWrite_kept {a1 a2} (h : Kept p v s) : Kept p v (State.lutctlWrite s a1 a2) := by
  unfold State.lutctlWrite
  with_reducible repeat'
    first
    | assumption | intro _
    | ((fail_if_no_progress extract_lets +onlyGivenNames z); try (refine Kept.have p v z ?_ ?_; on_goal 1 => unfold z; on_goal 2 => (try clear_value z)))
    | (fail_if_no_progress refine Kept.upd ?_ rfl) | refine Kept.ite ?_ ?_

theorem execLutctlWrite_kept {a1 a2} (h : Kept p v s) : KeptOut p v (execLutctlWrite a1 a2 s) := KeptOut.mk_next
  (State.lutctlWrite_kept h)

theorem State.clearForced_kept {a1} (h : Kept p v s) : Kept p v (State.clearForced s a1) := by
  unfold State.clearForced
  with_reducible repeat'
    first
    | assumption
    | ((fail_if_no_progress extract_lets +onlyGivenNames z); try (refine Kept.have p v z ?_ ?_; on_goal 1 => unfold z; on_goal 2 => (try clear_value z)))
    | (fail_if_no_progress refine Kept.upd ?_ rfl)

theorem execSclkratioRemeasure_kept {a1} (h : Kept p v s) : KeptOut p v (execSclkratioRemeasure a1 s) := by
  unfold execSclkratioRemeasure
  with_reducible repeat'
    first
    | assumption
    | ((fail_if_no_progress extract_lets +onlyGivenNames z); try (refine Kept.have p v z ?_ ?_; on_goal 1 => unfold z; on_goal 2 => (try clear_value z)))
    | apply KeptOut.mk_next | (fail_if_no_progress refine Kept.upd ?_ rfl)

/-! ### Gallery -/

theorem State.setGState_kept {a1 a2} (h : Kept p v s) : Kept p v (State.setGState s a1 a2) := by
  unfold State.setGState
  with_reducible repeat'
    first
    | assumption | intro _
    | ((fail_if_no_progress extract_lets +onlyGivenNames z); try (refine Kept.have p v z ?_ ?_; on_goal 1 => unfold z; on_goal 2 => (try clear_value z)))
    | apply State.modGal_kept | apply State.hirq_kept | refine Kept.ite ?_ ?_

theorem State.setEng_kept {a1} (h : Kept p v s) : Kept p v (State.setEng s a1) := by
  unfold State.setEng
  with_reducible repeat'
    first
    | assumption | intro _
    | ((fail_if_no_progress extract_lets +onlyGivenNames z); try (refine Kept.have p v z ?_ ?_; on_goal 1 => unfold z; on_goal 2 => (try clear_value z)))
    | apply State.hirq_kept | (fail_if_no_progress refine Kept.upd ?_ rfl) | refine Kept.ite ?_ ?_

theorem State.recovery_kept (h : Kept p v s) : Kept p v (State.recovery s) := by
  unfold State.recovery
  with_reducible repeat' first | assumption | apply State.setEng_kept | split

theorem State.recountGal_kept {a1} (h : Kept p v s) : Kept p v (State.recountGal s a1) := by
  unfold State.recountGal
  with_reducible repeat'
    first
    | assumption
    | ((fail_if_no_progress extract_lets +onlyGivenNames z); try (refine Kept.have p v z ?_ ?_; on_goal 1 => unfold z; on_goal 2 => (try clear_value z)))
    | apply State.modGal_kept

theorem State.recountBanks_kept {a1} (h : Kept p v s) : Kept p v (State.recountBanks s a1) := by
  unfold State.recountBanks
  with_reducible repeat'
    first
    | assumption
    | ((fail_if_no_progress extract_lets +onlyGivenNames z); try (refine Kept.have p v z ?_ ?_; on_goal 1 => unfold z; on_goal 2 => (try clear_value z)))
    | (fail_if_no_progress refine Kept.upd ?_ rfl)

theorem State.freeNow_kept {a1} (h : Kept p v s) : Kept p v (State.freeNow s a1) := by
  unfold State.freeNow
  with_reducible repeat'
    first
    | assumption
    | ((fail_if_no_progress extract_lets +onlyGivenNames z); try (refine Kept.have p v z ?_ ?_; on_goal 1 => unfold z; on_goal 2 => (try clear_value z)))
    | apply State.retractCtx_kept | apply State.closeReply_kept | apply State.freeCtx_kept
    | apply State.setCtxField_kept | apply State.closeCtxSession_kept | (fail_if_no_progress refine Kept.upd ?_ rfl)

theorem State.closeSweep_kept (h : Kept p v s) : Kept p v (State.closeSweep s) := by
  unfold State.closeSweep
  with_reducible repeat'
    first
    | assumption | intro _ | apply State.each_kept | apply State.freeNow_kept | refine Kept.ite ?_ ?_

theorem State.fenceSeq_kept {a1} (h : Kept p v s) : Kept p v (State.fenceSeq s a1) := by
  unfold State.fenceSeq
  with_reducible repeat'
    first
    | assumption
    | ((fail_if_no_progress extract_lets +onlyGivenNames z); try (refine Kept.have p v z ?_ ?_; on_goal 1 => unfold z; on_goal 2 => (try clear_value z)))
    | apply State.modSeq_kept | apply State.breakLock_kept | apply State.abandon_kept | apply State.dropRunning_kept
    | apply State.dropPrefetch_kept

theorem State.orphanAll_kept {a1} (h : Kept p v s) : Kept p v (State.orphanAll s a1) := by
  unfold State.orphanAll
  with_reducible repeat'
    first
    | assumption
    | ((fail_if_no_progress extract_lets +onlyGivenNames z); try (refine Kept.have p v z ?_ ?_; on_goal 1 => unfold z; on_goal 2 => (try clear_value z)))
    | apply State.retract_kept | apply State.retractLines_kept | apply State.releaseLines_kept
    | apply State.modMd_kept

theorem State.fence_kept {a1} (h : Kept p v s) : Kept p v (State.fence s a1) := by
  unfold State.fence
  with_reducible repeat'
    first
    | assumption | intro _
    | ((fail_if_no_progress extract_lets +onlyGivenNames z); try (refine Kept.have p v z ?_ ?_; on_goal 1 => unfold z; on_goal 2 => (try clear_value z)))
    | apply State.replyTo_kept | apply State.modGal_kept | apply State.setGState_kept | apply State.each_kept
    | apply State.fenceSeq_kept | apply State.orphanAll_kept | apply State.breakLocksAt_kept
    | apply State.closeSweep_kept | apply State.recountBanks_kept | apply State.recountGal_kept
    | refine Kept.ite ?_ ?_ | split | dsimp -zeta +zetaDelta only

theorem State.returnTokens_kept {a1} (h : Kept p v s) : Kept p v (State.returnTokens s a1) := by
  unfold State.returnTokens
  with_reducible repeat'
    first
    | assumption | intro _
    | ((fail_if_no_progress extract_lets +onlyGivenNames z); try (refine Kept.have p v z ?_ ?_; on_goal 1 => unfold z; on_goal 2 => (try clear_value z)))
    | apply State.each_kept | apply State.modSeq_kept | apply State.modGal_kept

theorem State.galleryReset_kept {a1 a2} (h : Kept p v s) : Kept p v (State.galleryReset s a1 a2) := by
  unfold State.galleryReset
  with_reducible repeat'
    first
    | assumption | intro _
    | ((fail_if_no_progress extract_lets +onlyGivenNames z); try (refine Kept.have p v z ?_ ?_; on_goal 1 => unfold z; on_goal 2 => (try clear_value z)))
    | apply State.each_kept | apply State.breakLock_kept | apply State.abandon_kept | apply State.releaseLines_kept
    | apply State.returnTokens_kept | apply State.modSeq_kept | apply State.modGal_kept
    | apply State.rewriteSlots_kept

theorem State.resetTimers_kept {a1} (h : Kept p v s) : Kept p v (State.resetTimers s a1) := State.modGal_kept h

theorem State.setPd_kept {a1 a2 a3} (h : Kept p v s) : Kept p v (State.setPd s a1 a2 a3) := by
  unfold State.setPd
  with_reducible repeat'
    first
    | assumption
    | ((fail_if_no_progress extract_lets +onlyGivenNames z); try (refine Kept.have p v z ?_ ?_; on_goal 1 => unfold z; on_goal 2 => (try clear_value z)))
    | (fail_if_no_progress refine Kept.upd ?_ rfl)

theorem State.logicOff_kept {a1 a2} (h : Kept p v s) : Kept p v (State.logicOff s a1 a2) := by
  unfold State.logicOff
  with_reducible repeat'
    first
    | assumption | intro _
    | ((fail_if_no_progress extract_lets +onlyGivenNames z); try (refine Kept.have p v z ?_ ?_; on_goal 1 => unfold z; on_goal 2 => (try clear_value z)))
    | apply State.each_kept | apply State.breakLock_kept | apply State.abandon_kept | apply State.breakLocksAt_kept
    | apply State.dropSlots_kept | apply State.returnTokens_kept | apply State.modSeq_kept | apply State.modGal_kept

theorem State.initScratch_kept {g} (h : Kept p v s) : Kept p v (s.initScratch g) :=
  State.modGal_kept ⟨Memory.wf_filter h.1 _, h.2⟩

theorem State.powerEnd_kept {a1 a2} (h : Kept p v s) : Kept p v (State.powerEnd s a1 a2) := by
  unfold State.powerEnd
  with_reducible repeat' first | assumption | apply State.replyTo_kept | apply State.modGal_kept | split

theorem State.powerAt_kept {a1 a2} (h : Kept p v s) : Kept p v (State.powerAt s a1 a2) := State.modGal_kept h

theorem State.lowerLogic_kept {a1 a2} (h : Kept p v s) : Kept p v (State.lowerLogic s a1 a2) := by
  unfold State.lowerLogic
  with_reducible repeat'
    first
    | assumption | intro _
    | ((fail_if_no_progress extract_lets +onlyGivenNames z); try (refine Kept.have p v z ?_ ?_; on_goal 1 => unfold z; on_goal 2 => (try clear_value z)))
    | apply State.logicOff_kept | apply State.powerEnd_kept | apply State.powerAt_kept | apply State.setPd_kept
    | refine Kept.ite ?_ ?_

theorem State.retainDone_kept {a1} (h : Kept p v s) : Kept p v (State.retainDone s a1) := by
  unfold State.retainDone
  with_reducible repeat'
    first
    | assumption | intro _ | apply State.lowerLogic_kept | apply State.modGal_kept | apply State.setGState_kept
    | refine Kept.ite ?_ ?_

theorem State.powerAdvance_kept {a1} (h : Kept p v s) : Kept p v (State.powerAdvance s a1) := by
  unfold State.powerAdvance
  with_reducible repeat'
    first
    | assumption | intro _ | apply State.lowerLogic_kept | apply State.modGal_kept | apply State.setGState_kept
    | apply State.retainDone_kept | apply State.powerAt_kept | refine Kept.ite ?_ ?_ | split

theorem State.powerUp_kept {a1 a2} (h : Kept p v s) : Kept p v (State.powerUp s a1 a2) := by
  unfold State.powerUp
  with_reducible repeat'
    first
    | assumption | intro _
    | ((fail_if_no_progress extract_lets +onlyGivenNames z); try (refine Kept.have p v z ?_ ?_; on_goal 1 => unfold z; on_goal 2 => (try clear_value z)))
    | apply State.galleryReset_kept | apply State.wakeTimers_kept | apply State.resetTimers_kept
    | apply State.powerEnd_kept | apply State.setGState_kept | refine Kept.ite ?_ ?_

theorem State.bistRecord_kept {a1} (h : Kept p v s) : Kept p v (State.bistRecord s a1) := State.record_kept h

theorem State.bistGallery_kept {a1} (h : Kept p v s) : Kept p v (State.bistGallery s a1) := by
  unfold State.bistGallery
  with_reducible repeat'
    first
    | assumption
    | ((fail_if_no_progress extract_lets +onlyGivenNames z); try (refine Kept.have p v z ?_ ?_; on_goal 1 => unfold z; on_goal 2 => (try clear_value z)))
    | apply State.setPd_kept | apply State.fresh_kept | apply State.bistRecord_kept | apply State.modGal_kept

theorem State.scratchUp_kept {a1} (h : Kept p v s) : Kept p v (State.scratchUp s a1) := by
  unfold State.scratchUp
  with_reducible repeat'
    first
    | assumption | intro _
    | ((fail_if_no_progress extract_lets +onlyGivenNames z); try (refine Kept.have p v z ?_ ?_; on_goal 1 => unfold z; on_goal 2 => (try clear_value z)))
    | apply State.powerEnd_kept | apply State.bistGallery_kept | apply State.modGal_kept
    | apply State.initScratch_kept | apply State.powerUp_kept | apply State.powerAt_kept | apply State.setPd_kept
    | refine Kept.ite ?_ ?_

theorem State.powerOnStart_kept {a1} (h : Kept p v s) : Kept p v (State.powerOnStart s a1) := by
  unfold State.powerOnStart
  with_reducible repeat'
    first
    | assumption | intro _ | apply State.scratchUp_kept | apply State.powerAt_kept | apply State.setPd_kept
    | refine Kept.ite ?_ ?_

theorem State.loweredAck_kept {a1 a2} (h : Kept p v s) : Kept p v (State.loweredAck s a1 a2) := by
  unfold State.loweredAck
  with_reducible repeat'
    first
    | assumption | intro _ | apply State.powerEnd_kept | apply State.powerAt_kept | apply State.setPd_kept
    | apply State.initScratch_kept | refine Kept.ite ?_ ?_ | split

theorem State.raisedAck_kept {a1 a2} (h : Kept p v s) : Kept p v (State.raisedAck s a1 a2) := by
  unfold State.raisedAck
  with_reducible repeat'
    first
    | assumption | intro _
    | ((fail_if_no_progress extract_lets +onlyGivenNames z); try (refine Kept.have p v z ?_ ?_; on_goal 1 => unfold z; on_goal 2 => (try clear_value z)))
    | apply State.galleryReset_kept | apply State.setPd_kept | apply State.scratchUp_kept | apply State.powerUp_kept
    | (fail_if_no_progress refine Kept.upd ?_ rfl) | refine Kept.ite ?_ ?_ | split

theorem State.raiseNext_kept (h : Kept p v s) : Kept p v (State.raiseNext s) := by
  unfold State.raiseNext
  with_reducible repeat' first | assumption | apply State.setPd_kept | split

theorem State.pdAck_kept {a1 a2} (h : Kept p v s) : Kept p v (State.pdAck s a1 a2) := by
  unfold State.pdAck
  with_reducible repeat'
    first
    | assumption | intro _ | apply State.raiseNext_kept | apply State.setPd_kept | apply State.each_kept
    | apply State.raisedAck_kept | apply State.loweredAck_kept | refine Kept.ite ?_ ?_

theorem State.timedOff_kept {a1} (h : Kept p v s) : Kept p v (State.timedOff s a1) := by
  unfold State.timedOff
  with_reducible repeat'
    first
    | assumption
    | ((fail_if_no_progress extract_lets +onlyGivenNames z); try (refine Kept.have p v z ?_ ?_; on_goal 1 => unfold z; on_goal 2 => (try clear_value z)))
    | apply State.setPd_kept | apply State.powerEnd_kept | apply State.setGState_kept
    | (fail_if_no_progress refine Kept.upd ?_ rfl)

theorem State.pdTimeout_kept {a1} (h : Kept p v s) : Kept p v (State.pdTimeout s a1) := by
  unfold State.pdTimeout
  with_reducible repeat'
    first
    | assumption | intro _
    | ((fail_if_no_progress extract_lets +onlyGivenNames z); try (refine Kept.have p v z ?_ ?_; on_goal 1 => unfold z; on_goal 2 => (try clear_value z)))
    | apply State.each_kept | apply State.timedOff_kept | (fail_if_no_progress refine Kept.upd ?_ rfl)
    | refine Kept.ite ?_ ?_

theorem State.squeezeStart_kept {a1 a2 a3} (h : Kept p v s) : Kept p v (State.squeezeStart s a1 a2 a3) := by
  unfold State.squeezeStart
  with_reducible repeat'
    first
    | assumption | intro _
    | ((fail_if_no_progress extract_lets +onlyGivenNames z); try (refine Kept.have p v z ?_ ?_; on_goal 1 => unfold z; on_goal 2 => (try clear_value z)))
    | apply State.modGal_kept | apply State.setGState_kept | apply State.each_kept | apply State.irq_kept
    | apply State.dropPrefetch_kept

theorem State.squeezeDeadline_kept {a1} (h : Kept p v s) : Kept p v (State.squeezeDeadline s a1) := by
  unfold State.squeezeDeadline
  with_reducible repeat'
    first
    | assumption | intro _
    | ((fail_if_no_progress extract_lets +onlyGivenNames z); try (refine Kept.have p v z ?_ ?_; on_goal 1 => unfold z; on_goal 2 => (try clear_value z)))
    | apply State.each_kept | apply State.preempt_kept | apply State.modSeq_kept | apply State.squeezeCheck_kept
    | refine Kept.ite ?_ ?_

theorem execSqueezeDeadline_kept {a1} (h : Kept p v s) : KeptOut p v (execSqueezeDeadline a1 s) := KeptOut.mk_next
  (State.squeezeDeadline_kept h)

theorem State.landSlot_kept {a1 a2} (h : Kept p v s) : Kept p v (State.landSlot s a1 a2) := State.irq_kept
  (State.modGal_kept h)

theorem State.slotIn_kept {g i it} (h : Kept p v s) : Kept p v (s.slotIn g i it) := by
  unfold State.slotIn
  extract_lets q w
  have hw : Kept p v w := State.landSlot_kept (State.modSeq_kept h)
  clear_value w
  refine State.idleBind_kept (Kept.ite (fun _ => ?_) fun _ => hw)
  have k := State.makeResident_kept (a1 := it.ctx) hw
  revert k
  cases w.makeResident it.ctx with
  | none => exact fun _ => hw
  | some _ => exact id

theorem State.placeSegs_kept {used l} (h : Kept p v s) : KeptOptSnd p v (s.placeSegs used l) := by
  induction l generalizing s used with
  | nil => exact h
  | cons x xs ih =>
    unfold State.placeSegs
    cases e : s.choose (placesFor used x.2.2 16) with
    | none => exact KeptOptSnd.none
    | some r =>
      have k : Kept p v r.2 := KeptOptSnd.of_some (State.choose_kept h) e
      cases e : r.2.placeSegs ((r.1, x.2.2) :: used) xs with
      | none =>
        rw [Option.bind_some, e]
        exact KeptOptSnd.none
      | some t =>
        rw [Option.bind_some, e]
        exact KeptOptSnd.mk_some (KeptOptSnd.of_some (ih k) e)

theorem State.placeHeld_kept {a1} (h : Kept p v s) : Kept p v (State.placeHeld s a1) := by
  unfold State.placeHeld
  with_reducible repeat'
    first
    | assumption | intro _
    | ((fail_if_no_progress extract_lets +onlyGivenNames z); try (refine Kept.have p v z ?_ ?_; on_goal 1 => unfold z; on_goal 2 => (try clear_value z)))
    | apply State.each_kept | apply State.slotIn_kept | (fail_if_no_progress refine Kept.upd ?_ rfl)
    | refine Kept.ite ?_ ?_ | split

theorem State.mpAnswered_kept {a1 a2 a3 a4 a5} (h : Kept p v s) : Kept p v (State.mpAnswered s a1 a2 a3 a4 a5) := by
  unfold State.mpAnswered
  with_reducible repeat' first | assumption | apply State.mpTransfer_kept | apply State.mpTimeout_kept | split

theorem State.movedOne_kept {a1 a2} (h : Kept p v s) : Kept p v (State.movedOne s a1 a2) := State.squeezeCheck_kept
  (State.modGal_kept h)

theorem State.leaveHomeless_kept {a1 a2} (h : Kept p v s) : Kept p v (State.leaveHomeless s a1 a2) := by
  unfold State.leaveHomeless
  with_reducible repeat'
    first
    | assumption | intro _ | apply State.movedOne_kept | apply State.setCtxFlag_kept | refine Kept.ite ?_ ?_

theorem State.squeezeFailed_kept {a1 a2} (h : Kept p v s) : Kept p v (State.squeezeFailed s a1 a2) := by
  unfold State.squeezeFailed
  with_reducible repeat'
    first
    | assumption | apply State.replyTo_kept | apply State.setGState_kept | apply State.modGal_kept | split

theorem State.breakCtx_kept {a1} (h : Kept p v s) : Kept p v (State.breakCtx s a1) := by
  unfold State.breakCtx
  with_reducible repeat'
    first
    | assumption | intro _
    | ((fail_if_no_progress extract_lets +onlyGivenNames z); try (refine Kept.have p v z ?_ ?_; on_goal 1 => unfold z; on_goal 2 => (try clear_value z)))
    | apply State.setCtxState_kept | apply State.each_kept | apply State.finishItem_kept
    | (fail_if_no_progress refine Kept.upd ?_ rfl)

theorem State.moveTo_kept {g k c} (h : Kept p v s) : Kept p v (s.moveTo g k c) := by
  have start {o : Option Nat} {b : Bool} : KeptOptSnd p v (if b then some (0, s) else o.map fun a => (a, s)) := by
    split
    · exact h
    · cases o
      · trivial
      · exact h
  unfold State.moveTo
  extract_lets save img segs
  split
  · exact State.leaveHomeless_kept h
  · next spill s0 e =>
    have h1 := KeptOptSnd.of_some start e
    split
    · exact State.leaveHomeless_kept h1
    · extract_lets w held was t
      have hw : Kept p v w := by
        refine State.each_kept (KeptOptSnd.of_some (State.placeSegs_kept h1) ‹_›) ?_
        rintro y ⟨i, off, n, o⟩ hy
        have r : KeptFst p v (y.mpRead k (spill + off) n) := State.mpRead_kept hy
        dsimp only
        generalize y.mpRead k (spill + off) n = e at r ⊢
        obtain ⟨t, bs⟩ := e
        exact State.mpWrite_kept (State.store_kept r)
      clear_value w
      have ht : Kept p v t := State.setCtxFlag_kept (State.setCtxField_kept hw)
      clear_value t
      refine State.placeHeld_kept (Kept.ite (fun _ => State.setCtxState_kept ht) fun _ => State.movedOne_kept (State.setCtxState_kept ht))

theorem State.spillOut_kept {g c} (h : Kept p v s) : Kept p v (s.spillOut g c) := by
  have hb : Kept p v (if (s.setCtxState c ctxHOMING).ctxFlag c 0 = true then (s.setCtxState c ctxHOMING).evict c
      else s.setCtxState c ctxHOMING) := Kept.ite (fun _ => State.evict_kept (State.setCtxState_kept h)) fun _ => State.setCtxState_kept h
  have go {y : State} {a off n : Nat} (hy : Kept p v y) : Kept p v (match y.scratchRead (scratchAddr g off) n with
      | (s, bs) => s.mpWrite g (a + off) bs) := by
    have k : KeptFst p v (y.scratchRead (scratchAddr g off) n) := State.scratchRead_kept hy
    generalize y.scratchRead (scratchAddr g off) n = e at k ⊢
    obtain ⟨t, bs⟩ := e
    exact State.mpWrite_kept k
  delta State.spillOut
  extract_lets a b img
  clear_value img
  split
  · exact hb
  · exact State.each_kept hb fun _ _ hy => go hy

theorem State.rehome_kept {c k x} (h : Kept p v s) : Kept p v (s.rehome c k x) := by
  unfold State.rehome
  refine Kept.ite (fun _ => h) fun _ => ?_
  extract_lets g waits dirty w z
  have hw : Kept p v w := State.mpAnswered_kept h
  have hz : Kept p v z := Kept.ite (fun _ => h) fun _ => State.spillOut_kept h
  clear_value w z
  split
  · refine Kept.ite (fun _ => ?_) fun _ => Kept.ite (fun _ => hw) fun _ => ?_
    · exact State.squeezeFailed_kept (State.breakCtx_kept (State.setCtxState_kept hw))
    · exact State.squeezeFailed_kept (State.leaveHomeless_kept (State.setCtxState_kept hw))
  · split
    · exact State.leaveHomeless_kept hz
    · exact Kept.ite (fun _ => State.moveTo_kept hz) fun _ => State.leaveHomeless_kept hz

theorem execRehoming_kept {a1 a2 a3} (h : Kept p v s) : KeptOut p v (execRehoming a1 a2 a3 s) := KeptOut.mk_next
  (State.rehome_kept h)

theorem State.setRtbase_kept {a1 a2} (h : Kept p v s) : Kept p v (State.setRtbase s a1 a2) := by
  unfold State.setRtbase
  with_reducible repeat'
    first
    | assumption | intro _
    | ((fail_if_no_progress extract_lets +onlyGivenNames z); try (refine Kept.have p v z ?_ ?_; on_goal 1 => unfold z; on_goal 2 => (try clear_value z)))
    | apply State.modGal_kept | apply State.each_kept | apply State.modSeq_kept

theorem State.writeRuntime_kept {a1} (h : Kept p v s) : Kept p v (State.writeRuntime s a1) := by
  unfold State.writeRuntime
  with_reducible repeat'
    first
    | assumption
    | ((fail_if_no_progress extract_lets +onlyGivenNames z); try (refine Kept.have p v z ?_ ?_; on_goal 1 => unfold z; on_goal 2 => (try clear_value z)))
    | apply State.store_kept | apply State.setRtbase_kept

theorem State.releaseGal_kept {a1} (h : Kept p v s) : Kept p v (State.releaseGal s a1) := by
  unfold State.releaseGal
  with_reducible repeat'
    first
    | assumption | intro _
    | ((fail_if_no_progress extract_lets +onlyGivenNames z); try (refine Kept.have p v z ?_ ?_; on_goal 1 => unfold z; on_goal 2 => (try clear_value z)))
    | apply State.writeRuntime_kept | apply State.each_kept | apply State.modSeq_kept | apply State.setGState_kept

theorem execGalleryTickStart_kept {a1} (h : Kept p v s) : KeptOut p v (execGalleryTickStart a1 s) := KeptOut.mk_next
  (State.placeHeld_kept (State.powerAdvance_kept (State.closeSweep_kept (State.galleryTick_kept h))))

/-! ### Ledger -/

theorem State.forceCell_kept {a1} (h : Kept p v s) : Kept p v (State.forceCell s a1) := by
  unfold State.forceCell
  with_reducible repeat'
    first
    | assumption
    | ((fail_if_no_progress extract_lets +onlyGivenNames z); try (refine Kept.have p v z ?_ ?_; on_goal 1 => unfold z; on_goal 2 => (try clear_value z)))
    | apply State.drivePins_kept | (fail_if_no_progress refine Kept.upd ?_ rfl)

theorem State.containMismatch_kept {a1 a2} (h : Kept p v s) : Kept p v (State.containMismatch s a1 a2) := by
  unfold State.containMismatch
  with_reducible repeat'
    first
    | assumption | intro _ | apply State.recovery_kept | apply State.forceCell_kept | apply State.recountBanks_kept
    | apply State.recountGal_kept | apply State.fence_kept | refine Kept.ite ?_ ?_ | split

theorem State.mismatch_kept {a1 a2 a3} (h : Kept p v s) : Kept p v (State.mismatch s a1 a2 a3) := by
  unfold State.mismatch
  with_reducible repeat'
    first
    | assumption
    | ((fail_if_no_progress extract_lets +onlyGivenNames z); try (refine Kept.have p v z ?_ ?_; on_goal 1 => unfold z; on_goal 2 => (try clear_value z)))
    | apply State.record_kept | apply State.hirq_kept | apply State.containMismatch_kept
    | (fail_if_no_progress refine Kept.upd ?_ rfl)

theorem State.ledgerSelfFault_kept (h : Kept p v s) : Kept p v (State.ledgerSelfFault s) := by
  unfold State.ledgerSelfFault
  with_reducible repeat'
    first
    | assumption
    | ((fail_if_no_progress extract_lets +onlyGivenNames z); try (refine Kept.have p v z ?_ ?_; on_goal 1 => unfold z; on_goal 2 => (try clear_value z)))
    | apply State.recovery_kept | (fail_if_no_progress refine Kept.upd ?_ rfl)

theorem State.auditDone_kept {a1} (h : Kept p v s) : Kept p v (State.auditDone s a1) := by
  unfold State.auditDone
  with_reducible repeat'
    first
    | assumption
    | ((fail_if_no_progress extract_lets +onlyGivenNames z); try (refine Kept.have p v z ?_ ?_; on_goal 1 => unfold z; on_goal 2 => (try clear_value z)))
    | (fail_if_no_progress refine Kept.upd ?_ rfl)

theorem State.auditStorage_kept (h : Kept p v s) : Kept p v (State.auditStorage s) := by
  unfold State.auditStorage
  with_reducible repeat'
    first
    | assumption
    | ((fail_if_no_progress extract_lets +onlyGivenNames z); try (refine Kept.have p v z ?_ ?_; on_goal 1 => unfold z; on_goal 2 => (try clear_value z)))
    | (fail_if_no_progress refine Kept.upd ?_ rfl)

theorem State.ledgerAudit_kept (h : Kept p v s) : Kept p v (State.ledgerAudit s) := by
  unfold State.ledgerAudit
  with_reducible repeat'
    first
    | assumption | intro _
    | ((fail_if_no_progress extract_lets +onlyGivenNames z); try (refine Kept.have p v z ?_ ?_; on_goal 1 => unfold z; on_goal 2 => (try clear_value z)))
    | apply State.auditStorage_kept | apply State.ledgerSelfFault_kept | apply State.auditDone_kept
    | apply State.each_kept | apply State.mismatch_kept | refine Kept.ite ?_ ?_

theorem execLedgerAudit_kept (h : Kept p v s) : KeptOut p v (execLedgerAudit s) := KeptOut.mk_next
  (State.ledgerAudit_kept h)

theorem State.recountAll_kept (h : Kept p v s) : Kept p v (State.recountAll s) := by
  unfold State.recountAll
  with_reducible repeat'
    first
    | assumption | intro _
    | ((fail_if_no_progress extract_lets +onlyGivenNames z); try (refine Kept.have p v z ?_ ?_; on_goal 1 => unfold z; on_goal 2 => (try clear_value z)))
    | apply State.each_kept | apply State.recountGal_kept | apply State.recountBanks_kept
    | (fail_if_no_progress refine Kept.upd ?_ rfl)

theorem State.ledgerRecount_kept (h : Kept p v s) : Kept p v (State.ledgerRecount s) := by
  unfold State.ledgerRecount
  with_reducible repeat'
    first
    | assumption | intro _
    | ((fail_if_no_progress extract_lets +onlyGivenNames z); try (refine Kept.have p v z ?_ ?_; on_goal 1 => unfold z; on_goal 2 => (try clear_value z)))
    | apply State.recountAll_kept | (fail_if_no_progress refine Kept.upd ?_ rfl) | refine Kept.ite ?_ ?_

theorem execLedgerRecount_kept (h : Kept p v s) : KeptOut p v (execLedgerRecount s) := KeptOut.mk_next
  (State.ledgerRecount_kept h)

theorem State.addTerm_kept {a1 a2 a3 a4} (h : Kept p v s) : Kept p v (State.addTerm s a1 a2 a3 a4) := by
  unfold State.addTerm
  with_reducible repeat'
    first
    | assumption | intro _
    | ((fail_if_no_progress extract_lets +onlyGivenNames z); try (refine Kept.have p v z ?_ ?_; on_goal 1 => unfold z; on_goal 2 => (try clear_value z)))
    | apply State.modGal_kept | (fail_if_no_progress refine Kept.upd ?_ rfl) | refine Kept.ite ?_ ?_ | split

theorem State.ledgvalWrite_kept {a1} (h : Kept p v s) : Kept p v (State.ledgvalWrite s a1) := by
  unfold State.ledgvalWrite
  with_reducible repeat'
    first
    | assumption | intro _
    | ((fail_if_no_progress extract_lets +onlyGivenNames z); try (refine Kept.have p v z ?_ ?_; on_goal 1 => unfold z; on_goal 2 => (try clear_value z)))
    | apply State.addTerm_kept | (fail_if_no_progress refine Kept.upd ?_ rfl) | refine Kept.ite ?_ ?_

theorem execLedgvalWrite_kept {a1} (h : Kept p v s) : KeptOut p v (execLedgvalWrite a1 s) := KeptOut.mk_next
  (State.ledgvalWrite_kept h)

theorem State.rearm_kept (h : Kept p v s) : Kept p v (State.rearm s) := by
  unfold State.rearm
  with_reducible repeat'
    first
    | assumption
    | ((fail_if_no_progress extract_lets +onlyGivenNames z); try (refine Kept.have p v z ?_ ?_; on_goal 1 => unfold z; on_goal 2 => (try clear_value z)))
    | (fail_if_no_progress refine Kept.upd ?_ rfl)

theorem execRearm_kept (h : Kept p v s) : KeptOut p v (execRearm s) := KeptOut.mk_next (State.rearm_kept h)

/-! ### Image -/

theorem State.authenticate_kept {a1} (h : Kept p v s) : KeptSnd p v (State.authenticate s a1) := by
  unfold State.authenticate
  with_reducible repeat'
    first
    | assumption | intro _
    | ((fail_if_no_progress extract_lets +onlyGivenNames z); try (refine Kept.have p v z ?_ ?_; on_goal 1 => unfold z; on_goal 2 => (try clear_value z)))
    | apply KeptSnd.mk_pair | apply State.dgTimeoutRecord_kept | apply State.record_kept
    | (fail_if_no_progress refine Kept.upd ?_ rfl) | refine Kept.ite ?_ ?_ | split

theorem State.stageCopy_kept {a1 a2} (h : Kept p v s) : KeptFst p v (State.stageCopy s a1 a2) := by
  unfold State.stageCopy
  with_reducible repeat'
    first
    | assumption
    | ((fail_if_no_progress extract_lets +onlyGivenNames z); try (refine Kept.have p v z ?_ ?_; on_goal 1 => unfold z; on_goal 2 => (try clear_value z)))
    | apply KeptFst.mk_pair | apply State.mpWrite_kept | apply State.fresh_kept

theorem State.copyPart_kept {o n} (h : Kept p v s) : KeptFst p v (s.copyPart o n) := by
  unfold State.copyPart
  split
  · exact h
  · next q =>
    split
    · exact h
    · have k : KeptFst p v (s.stageCopy q.place q.size) := State.stageCopy_kept h
      generalize s.stageCopy q.place q.size = e at k ⊢
      obtain ⟨t, d⟩ := e
      exact k

theorem State.copySet_kept {o m} (h : Kept p v s) : KeptFst p v (s.copySet o m) :=
  State.copyPart_kept (State.copyPart_kept (State.copyPart_kept (State.copyPart_kept h)))

theorem State.commitBegin_kept {a1} (h : Kept p v s) : Kept p v (State.commitBegin s a1) := by
  unfold State.commitBegin
  with_reducible repeat'
    first
    | assumption | intro _
    | ((fail_if_no_progress extract_lets +onlyGivenNames z); try (refine Kept.have p v z ?_ ?_; on_goal 1 => unfold z; on_goal 2 => (try clear_value z)))
    | apply State.galleryReset_kept | apply State.each_kept | apply State.modSeq_kept | apply State.modGal_kept

theorem State.commitGal_kept {a1 a2 a3} (h : Kept p v s) : Kept p v (State.commitGal s a1 a2 a3) := by
  unfold State.commitGal
  with_reducible repeat'
    first
    | assumption | intro _
    | ((fail_if_no_progress extract_lets +onlyGivenNames z); try (refine Kept.have p v z ?_ ?_; on_goal 1 => unfold z; on_goal 2 => (try clear_value z)))
    | apply State.commitBegin_kept | apply State.each_kept | apply State.modSeq_kept | apply State.copySet_kept
    | apply State.record_kept | apply State.modGal_kept | apply KeptFst.fst | refine Kept.ite ?_ ?_

theorem State.scrubPaid_kept {a1 a2 a3} (h : Kept p v s) : Kept p v (State.scrubPaid s a1 a2 a3) := by
  unfold State.scrubPaid
  with_reducible repeat'
    first
    | assumption
    | ((fail_if_no_progress extract_lets +onlyGivenNames z); try (refine Kept.have p v z ?_ ?_; on_goal 1 => unfold z; on_goal 2 => (try clear_value z)))
    | (fail_if_no_progress refine Kept.upd ?_ rfl)

theorem State.scrubRewrite_kept {a1 a2 a3} (h : Kept p v s) : Kept p v (State.scrubRewrite s a1 a2 a3) := by
  unfold State.scrubRewrite
  with_reducible repeat'
    first
    | assumption | intro _
    | ((fail_if_no_progress extract_lets +onlyGivenNames z); try (refine Kept.have p v z ?_ ?_; on_goal 1 => unfold z; on_goal 2 => (try clear_value z)))
    | apply State.modSeq_kept | apply State.scrubPaid_kept | refine Kept.ite ?_ ?_

theorem execScrubRewrite_kept {a1 a2 a3} (h : Kept p v s) : KeptOut p v (execScrubRewrite a1 a2 a3 s) :=
  KeptOut.mk_next (State.scrubRewrite_kept h)

theorem State.storeRepair_kept {a1 a2 a3 a4} (h : Kept p v s) : Kept p v (State.storeRepair s a1 a2 a3 a4) := by
  unfold State.storeRepair
  with_reducible repeat'
    first
    | assumption | intro _
    | ((fail_if_no_progress extract_lets +onlyGivenNames z); try (refine Kept.have p v z ?_ ?_; on_goal 1 => unfold z; on_goal 2 => (try clear_value z)))
    | apply State.authenticate_kept | apply State.scrubPaid_kept | apply State.modSeq_kept | apply State.record_kept
    | apply KeptSnd.snd | refine Kept.ite ?_ ?_

theorem execControlStoreRepair_kept {a1 a2 a3 a4} (h : Kept p v s) : KeptOut p v (execControlStoreRepair a1 a2 a3 a4
  s) := KeptOut.mk_next (State.storeRepair_kept h)

theorem State.mcRestart_kept {a1} (h : Kept p v s) : Kept p v (State.mcRestart s a1) := by
  unfold State.mcRestart
  with_reducible repeat' first | assumption | intro _ | apply State.modSeq_kept | refine Kept.ite ?_ ?_

theorem execMcfaultRestart_kept {a1} (h : Kept p v s) : KeptOut p v (execMcfaultRestart a1 s) := by
  unfold execMcfaultRestart
  with_reducible repeat'
    first
    | assumption | intro _ | apply KeptOut.mk_next | apply State.mcRestart_kept | refine Kept.ite ?_ ?_

/-! ### Encoding -/

theorem State.latchedEntry_kept {a1 a2} (h : Kept p v s) : Kept p v (State.latchedEntry s a1 a2) := by
  unfold State.latchedEntry
  with_reducible repeat'
    first
    | assumption
    | ((fail_if_no_progress extract_lets +onlyGivenNames z); try (refine Kept.have p v z ?_ ?_; on_goal 1 => unfold z; on_goal 2 => (try clear_value z)))
    | apply State.enter_kept | apply State.modSeq_kept

theorem State.exceptionEntry_kept {a1 a2} (h : Kept p v s) : Kept p v (State.exceptionEntry s a1 a2) := by
  unfold State.exceptionEntry
  with_reducible repeat'
    first
    | assumption | intro _ | apply KeptRes.mk_exn | apply runInstr_kept | apply State.fetchAt_kept
    | apply State.enter_kept | apply State.routine_kept | apply State.latchedEntry_kept
    | refine KeptFetched.of_exn ?_ (by assumption) | refine Kept.ite ?_ ?_ | split

theorem execExceptionEntry_kept {a1 a2} (h : Kept p v s) : KeptOut p v (execExceptionEntry a1 a2 s) := KeptOut.mk_next
  (State.exceptionEntry_kept h)

/-! ### Scratch -/

theorem State.eccWriteback_kept {a1 a2} (h : Kept p v s) : Kept p v (State.eccWriteback s a1 a2) := by
  unfold State.eccWriteback
  with_reducible repeat'
    first
    | assumption
    | ((fail_if_no_progress extract_lets +onlyGivenNames z); try (refine Kept.have p v z ?_ ?_; on_goal 1 => unfold z; on_goal 2 => (try clear_value z)))
    | (fail_if_no_progress refine Kept.upd ?_ rfl) | split

theorem execScratchEccWriteback_kept {a1 a2} (h : Kept p v s) : KeptOut p v (execScratchEccWriteback a1 a2 s) :=
  KeptOut.mk_next (State.eccWriteback_kept h)

theorem execBankownWrite_kept {a1 a2 a3 a4} (h : Kept p v s) : KeptOut p v (execBankownWrite a1 a2 a3 a4 s) := by
  unfold execBankownWrite
  with_reducible repeat'
    first
    | assumption | intro _ | apply KeptOut.mk_next | apply State.modGal_kept | refine Kept.ite ?_ ?_

theorem execBankretWrite_kept {a1 a2 a3} (h : Kept p v s) : KeptOut p v (execBankretWrite a1 a2 a3 s) := by
  unfold execBankretWrite
  with_reducible repeat'
    first
    | assumption | intro _ | apply KeptOut.mk_next | apply State.modGal_kept | refine Kept.ite ?_ ?_

theorem State.retentionEntry_kept {a1 a2} (h : Kept p v s) : Kept p v (State.retentionEntry s a1 a2) := by
  unfold State.retentionEntry
  with_reducible repeat'
    first
    | assumption | intro _
    | ((fail_if_no_progress extract_lets +onlyGivenNames z); try (refine Kept.have p v z ?_ ?_; on_goal 1 => unfold z; on_goal 2 => (try clear_value z)))
    | apply State.powerAdvance_kept | apply State.modGal_kept | refine Kept.ite ?_ ?_

theorem execRetentionEntry_kept {a1 a2} (h : Kept p v s) : KeptOut p v (execRetentionEntry a1 a2 s) := KeptOut.mk_next
  (State.retentionEntry_kept h)

theorem State.bankWake_kept {a1 a2} (h : Kept p v s) : Kept p v (State.bankWake s a1 a2) := by
  unfold State.bankWake
  with_reducible repeat' first | assumption | intro _ | apply State.modGal_kept | refine Kept.ite ?_ ?_

theorem execBankWake_kept {a1 a2} (h : Kept p v s) : KeptOut p v (execBankWake a1 a2 s) := KeptOut.mk_next
  (State.bankWake_kept h)

theorem State.loseBank_kept {g b} (h : Kept p v s) : Kept p v (s.loseBank g b) := by
  unfold State.loseBank
  extract_lets a n cws out
  exact Kept.updMem h (fun k => Memory.wf_writeBytes k ..) rfl

theorem State.vddRetLoss_kept {a1} (h : Kept p v s) : Kept p v (State.vddRetLoss s a1) := by
  unfold State.vddRetLoss
  with_reducible repeat'
    first
    | assumption | intro _ | apply State.each_kept | apply State.loseBank_kept | refine Kept.ite ?_ ?_

theorem execVddRetLoss_kept {a1} (h : Kept p v s) : KeptOut p v (execVddRetLoss a1 s) := KeptOut.mk_next
  (State.vddRetLoss_kept h)

theorem execRtbaseWrite_kept {a1 a2} (h : Kept p v s) : KeptOut p v (execRtbaseWrite a1 a2 s) := by
  unfold execRtbaseWrite
  with_reducible repeat'
    first
    | assumption | intro _ | apply KeptOut.mk_next | apply State.setRtbase_kept | refine Kept.ite ?_ ?_

theorem State.rtFail_kept {a1} (h : Kept p v s) : Kept p v (State.rtFail s a1) := by
  unfold State.rtFail
  with_reducible repeat'
    first
    | assumption
    | ((fail_if_no_progress extract_lets +onlyGivenNames z); try (refine Kept.have p v z ?_ ?_; on_goal 1 => unfold z; on_goal 2 => (try clear_value z)))
    | apply State.modGal_kept | apply State.record_kept | apply State.modSeq_kept

theorem State.rtLoad_kept {a1 a2} (h : Kept p v s) : Kept p v (State.rtLoad s a1 a2) := by
  unfold State.rtLoad
  with_reducible repeat'
    first
    | assumption
    | ((fail_if_no_progress extract_lets +onlyGivenNames z); try (refine Kept.have p v z ?_ ?_; on_goal 1 => unfold z; on_goal 2 => (try clear_value z)))
    | apply State.modGal_kept | apply State.modSeq_kept | apply State.idleBind_kept

theorem State.runtimeBlockLoad_kept {a1} (h : Kept p v s) : Kept p v (State.runtimeBlockLoad s a1) := by
  unfold State.runtimeBlockLoad
  with_reducible repeat'
    first
    | assumption | intro _
    | ((fail_if_no_progress extract_lets +onlyGivenNames z); try (refine Kept.have p v z ?_ ?_; on_goal 1 => unfold z; on_goal 2 => (try clear_value z)))
    | apply State.rtFail_kept | apply State.memRead_kept | apply State.routine_kept | apply State.rtLoad_kept
    | refine KeptAcc.of_ok ?_ (by assumption) | refine KeptAcc.of_bus ?_ (by assumption)
    | refine KeptAcc.of_wait ?_ (by assumption) | refine Kept.ite ?_ ?_ | split

theorem execRuntimeBlockLoad_kept {a1} (h : Kept p v s) : KeptOut p v (execRuntimeBlockLoad a1 s) := KeptOut.mk_next
  (State.runtimeBlockLoad_kept h)

theorem execIrqsetWrite_kept {a1 a2} (h : Kept p v s) : KeptOut p v (execIrqsetWrite a1 a2 s) := by
  unfold execIrqsetWrite
  with_reducible repeat'
    first
    | assumption | intro _ | apply KeptOut.mk_next | apply State.modSeq_kept | refine Kept.ite ?_ ?_

/-! ### Work -/

theorem State.wdEnd_kept {a1 a2 a3 a4} (h : Kept p v s) : Kept p v (State.wdEnd s a1 a2 a3 a4) := by
  unfold State.wdEnd
  with_reducible repeat'
    first
    | assumption
    | ((fail_if_no_progress extract_lets +onlyGivenNames z); try (refine Kept.have p v z ?_ ?_; on_goal 1 => unfold z; on_goal 2 => (try clear_value z)))
    | apply State.postRecord_kept | (fail_if_no_progress refine Kept.upd ?_ rfl)

theorem State.workDescriptor_kept {a1} (h : Kept p v s) : Kept p v (State.workDescriptor s a1) := by
  unfold State.workDescriptor
  with_reducible repeat'
    first
    | assumption | intro _
    | ((fail_if_no_progress extract_lets +onlyGivenNames z); try (refine Kept.have p v z ?_ ?_; on_goal 1 => unfold z; on_goal 2 => (try clear_value z)))
    | apply State.placeHeld_kept | apply State.led_kept | apply State.wdEnd_kept | apply State.ctxTouch_kept
    | apply State.landSlot_kept | apply State.slotIn_kept | apply State.setCtxField_kept
    | apply State.setCtxState_kept | refine Kept.ite ?_ ?_ | split

theorem execWorkDescriptor_kept {a1} (h : Kept p v s) : KeptOut p v (execWorkDescriptor a1 s) := KeptOut.mk_next
  (State.workDescriptor_kept h)

theorem State.recallSeq_kept {a1} (h : Kept p v s) : Kept p v (State.recallSeq s a1) := by
  unfold State.recallSeq
  with_reducible repeat'
    first
    | assumption | intro _ | apply State.irq_kept | apply State.modSeq_kept | apply State.dropPrefetch_kept
    | refine Kept.ite ?_ ?_ | split

theorem execWorkRecall_kept {a1} (h : Kept p v s) : KeptOut p v (execWorkRecall a1 s) := by
  unfold execWorkRecall
  with_reducible repeat'
    first
    | assumption | intro _ | apply KeptOut.mk_next | apply State.each_kept | apply State.recallSeq_kept

theorem State.completionOut_kept (h : Kept p v s) : Kept p v (State.completionOut s) := by
  unfold State.completionOut
  with_reducible repeat'
    first
    | assumption
    | ((fail_if_no_progress extract_lets +onlyGivenNames z); try (refine Kept.have p v z ?_ ?_; on_goal 1 => unfold z; on_goal 2 => (try clear_value z)))
    | (fail_if_no_progress refine Kept.upd ?_ rfl) | split

theorem execCompletionRecord_kept (h : Kept p v s) : KeptOut p v (execCompletionRecord s) := KeptOut.mk_next
  (State.completionOut_kept h)

/-! ### Debug -/

theorem State.haltRequest_kept {a1} (h : Kept p v s) : Kept p v (State.haltRequest s a1) := State.modSeq_kept h

theorem execDbgctlHalt_kept {a1} (h : Kept p v s) : KeptOut p v (execDbgctlHalt a1 s) := by
  unfold execDbgctlHalt
  with_reducible repeat'
    first
    | assumption | intro _ | apply KeptOut.mk_next | apply State.haltRequest_kept | refine Kept.ite ?_ ?_

theorem State.resumePacket_kept {a1} (h : Kept p v s) : Kept p v (State.resumePacket s a1) := State.seqPacket_kept h

theorem State.resumeSeq_kept {a1} (h : Kept p v s) : Kept p v (State.resumeSeq s a1) := by
  unfold State.resumeSeq
  with_reducible repeat'
    first
    | assumption | intro _
    | ((fail_if_no_progress extract_lets +onlyGivenNames z); try (refine Kept.have p v z ?_ ?_; on_goal 1 => unfold z; on_goal 2 => (try clear_value z)))
    | apply State.idleBind_kept | apply State.resumePacket_kept | apply State.modSeq_kept | refine Kept.ite ?_ ?_

theorem execDbgctlResume_kept {a1} (h : Kept p v s) : KeptOut p v (execDbgctlResume a1 s) := by
  unfold execDbgctlResume
  with_reducible repeat'
    first
    | assumption | intro _ | apply KeptOut.mk_next | apply State.resumeSeq_kept | refine Kept.ite ?_ ?_

theorem State.ewdKick_kept {a1 a2} (h : Kept p v s) : Kept p v (State.ewdKick s a1 a2) := by
  unfold State.ewdKick
  with_reducible repeat'
    first
    | assumption | intro _
    | ((fail_if_no_progress extract_lets +onlyGivenNames z); try (refine Kept.have p v z ?_ ?_; on_goal 1 => unfold z; on_goal 2 => (try clear_value z)))
    | (fail_if_no_progress refine Kept.upd ?_ rfl) | refine Kept.ite ?_ ?_

theorem execEwdkick_kept {a1 a2} (h : Kept p v s) : KeptOut p v (execEwdkick a1 a2 s) := KeptOut.mk_next
  (State.ewdKick_kept h)

theorem State.xtInEdge_kept {a1} (h : Kept p v s) : Kept p v (State.xtInEdge s a1) := by
  unfold State.xtInEdge
  with_reducible repeat' first | assumption | intro _ | apply State.fireRope_kept | refine Kept.ite ?_ ?_

theorem execXtInEdge_kept {a1} (h : Kept p v s) : KeptOut p v (execXtInEdge a1 s) := KeptOut.mk_next
  (State.xtInEdge_kept h)

theorem State.ropePulseEnd_kept {a1} (h : Kept p v s) : Kept p v (State.ropePulseEnd s a1) := by
  unfold State.ropePulseEnd
  with_reducible repeat'
    first
    | assumption | intro _
    | ((fail_if_no_progress extract_lets +onlyGivenNames z); try (refine Kept.have p v z ?_ ?_; on_goal 1 => unfold z; on_goal 2 => (try clear_value z)))
    | apply State.each_kept | apply State.modGal_kept | (fail_if_no_progress refine Kept.upd ?_ rfl)
    | refine Kept.ite ?_ ?_

theorem execRopePulseEnd_kept {a1} (h : Kept p v s) : KeptOut p v (execRopePulseEnd a1 s) := KeptOut.mk_next
  (State.ropePulseEnd_kept h)

end Sys2Proof.Machine
end

