-- ==== Sys2Proof/Laws/KeptHost.lean ====
section
/-!
SUPPORT. What keeps both memories, the queue and the configuration: the registers, the mailboxes and their commands, the micro level, debug, and start. One lemma for each operation, named after
it, for the provers to cite: the outcome keeps where the state it starts from does.
-/

namespace Sys2Proof.Machine

open Sys2Proof

variable {p : List Instr} {v : Variant} {s t : State}

set_option linter.unusedTactic false
set_option linter.unreachableTactic false

/-! ### RegMap -/

theorem State.galReadFx_kept {a1 a2} (h : Kept p v s) : Kept p v (State.galReadFx s a1 a2) := by
  unfold State.galReadFx
  with_reducible repeat'
    first
    | assumption | apply State.modGal_kept | apply State.modMd_kept | apply State.modTimer_kept | split

theorem State.seqReadFx_kept {a1 a2} (h : Kept p v s) : Kept p v (State.seqReadFx s a1 a2) := by
  unfold State.seqReadFx
  with_reducible repeat' first | assumption | apply State.modSeq_kept | split

theorem State.readFx_kept {a1} (h : Kept p v s) : Kept p v (State.readFx s a1) := by
  unfold State.readFx
  with_reducible repeat'
    first
    | assumption
    | ((fail_if_no_progress extract_lets +onlyGivenNames z); try (refine Kept.have p v z ?_ ?_; on_goal 1 => unfold z; on_goal 2 => (try clear_value z)))
    | apply State.galReadFx_kept | apply State.seqReadFx_kept | (fail_if_no_progress refine Kept.upd ?_ rfl) | split

theorem State.evocfgWrite_kept {a1 a2} (h : Kept p v s) : Kept p v (State.evocfgWrite s a1 a2) := by
  unfold State.evocfgWrite
  with_reducible repeat'
    first
    | assumption
    | ((fail_if_no_progress extract_lets +onlyGivenNames z); try (refine Kept.have p v z ?_ ?_; on_goal 1 => unfold z; on_goal 2 => (try clear_value z)))
    | (fail_if_no_progress refine Kept.upd ?_ rfl)

theorem State.lutselWrite_kept {a1 a2} (h : Kept p v s) : Kept p v (State.lutselWrite s a1 a2) := by
  unfold State.lutselWrite
  with_reducible repeat'
    first
    | assumption
    | ((fail_if_no_progress extract_lets +onlyGivenNames z); try (refine Kept.have p v z ?_ ?_; on_goal 1 => unfold z; on_goal 2 => (try clear_value z)))
    | (fail_if_no_progress refine Kept.upd ?_ rfl)

theorem State.dbgctlWrite_kept {a1 a2} (h : Kept p v s) : Kept p v (State.dbgctlWrite s a1 a2) := by
  unfold State.dbgctlWrite
  with_reducible repeat'
    first
    | assumption | intro _
    | ((fail_if_no_progress extract_lets +onlyGivenNames z); try (refine Kept.have p v z ?_ ?_; on_goal 1 => unfold z; on_goal 2 => (try clear_value z)))
    | apply State.modSeq_kept | apply State.haltRequest_kept | apply State.resumeSeq_kept | refine Kept.ite ?_ ?_

theorem State.galWrite_kept {a1 a2 a3 a4} (h : Kept p v s) : Kept p v (State.galWrite s a1 a2 a3 a4) := by
  unfold State.galWrite
  with_reducible repeat'
    first
    | assumption | apply State.phaseWrite_kept | apply State.modGal_kept | apply State.setRtbase_kept
    | apply State.modMd_kept | apply State.timerCtl_kept | apply State.modTimer_kept | apply State.timerCount_kept
    | apply State.timerCmp_kept | split

theorem State.seqWrite_kept {a1 a2 a3} (h : Kept p v s) : Kept p v (State.seqWrite s a1 a2 a3) := by
  unfold State.seqWrite
  with_reducible repeat'
    first
    | assumption | intro _ | apply State.mcRestart_kept | apply State.modSeq_kept | apply State.dbgctlWrite_kept
    | refine Kept.ite ?_ ?_ | split

theorem State.globWrite_kept {r a2 a3} (h : Kept p v s) : Kept p v (s.globWrite r a2 a3) := by
  unfold State.globWrite
  cases r <;> dsimp only <;>
    first
    | with_reducible exact h
    | with_reducible exact Kept.upd h rfl
    | with_reducible exact State.setPlantWord_kept h
    | with_reducible exact State.writeHoldcfg_kept h
    | with_reducible exact Kept.ite (fun _ => State.rearm_kept h) fun _ => h
    | with_reducible exact State.ledgvalWrite_kept h
    | with_reducible exact State.chsubWrite_kept h
    | with_reducible exact State.modIn_kept h
    | with_reducible exact State.evocfgWrite_kept h
    | with_reducible exact State.lutselWrite_kept h
    | with_reducible exact State.lutctlWrite_kept h
    | with_reducible exact Kept.ite (fun _ => State.clearForced_kept h) fun _ => h
    | with_reducible exact State.ewdKick_kept h
    | with_reducible exact State.galWrite_kept h
    | with_reducible exact State.seqWrite_kept h

/-! ### Mailbox -/

theorem State.dbBusy_kept {a1} (h : Kept p v s) : Kept p v (State.dbBusy s a1) := by
  unfold State.dbBusy
  with_reducible repeat'
    first
    | assumption
    | ((fail_if_no_progress extract_lets +onlyGivenNames z); try (refine Kept.have p v z ?_ ?_; on_goal 1 => unfold z; on_goal 2 => (try clear_value z)))
    | (fail_if_no_progress refine Kept.upd ?_ rfl)

theorem State.commitMsg_kept {a1} (h : Kept p v s) : Kept p v (State.commitMsg s a1) := by
  unfold State.commitMsg
  with_reducible repeat'
    first
    | assumption
    | ((fail_if_no_progress extract_lets +onlyGivenNames z); try (refine Kept.have p v z ?_ ?_; on_goal 1 => unfold z; on_goal 2 => (try clear_value z)))
    | apply State.answerFaulty_kept | (fail_if_no_progress refine Kept.upd ?_ rfl)

theorem State.doorbell_kept {a1 a2} (h : Kept p v s) : Kept p v (State.doorbell s a1 a2) := by
  unfold State.doorbell
  with_reducible repeat'
    first
    | assumption | intro _
    | ((fail_if_no_progress extract_lets +onlyGivenNames z); try (refine Kept.have p v z ?_ ?_; on_goal 1 => unfold z; on_goal 2 => (try clear_value z)))
    | apply State.each_kept | apply State.dbBusy_kept | apply State.reply_kept | apply State.commitMsg_kept
    | refine Kept.ite ?_ ?_

theorem execDoorbell_kept {a1 a2} (h : Kept p v s) : KeptOut p v (execDoorbell a1 a2 s) := KeptOut.mk_next
  (State.doorbell_kept h)

theorem State.command_kept {a1 a2 a3 a4 f5 a6} (h : Kept p v s) (hf5 : ∀ y0, Kept p v y0 → Kept p v (f5 y0)) : Kept p v (State.command s a1 a2 a3 a4 f5 a6) := by
  unfold State.command
  with_reducible repeat'
    first
    | assumption | intro _ | apply State.reply_kept | refine hf5 _ ?_ | refine Kept.ite ?_ ?_ | split

theorem State.behind_kept {a1} (h : Kept p v s) : Kept p v (State.behind s a1) := by
  unfold State.behind
  with_reducible repeat'
    first
    | assumption
    | ((fail_if_no_progress extract_lets +onlyGivenNames z); try (refine Kept.have p v z ?_ ?_; on_goal 1 => unfold z; on_goal 2 => (try clear_value z)))
    | apply State.answerFaulty_kept | (fail_if_no_progress refine Kept.upd ?_ rfl)

theorem State.xferDo_kept {a1 a2 a3 a4 a5 a6 f7} (h : Kept p v s) (hf7 : ∀ y0, Kept p v y0 → Kept p v (f7 y0)) : Kept p v (State.xferDo s a1 a2 a3 a4 a5 a6 f7) := by
  unfold State.xferDo
  with_reducible repeat'
    first
    | assumption
    | ((fail_if_no_progress extract_lets +onlyGivenNames z); try (refine Kept.have p v z ?_ ?_; on_goal 1 => unfold z; on_goal 2 => (try clear_value z)))
    | apply State.mpAnswered_kept | apply State.reply_kept | refine hf7 _ ?_ | split

theorem State.hostErr_kept {a1 a2} (h : Kept p v s) : Kept p v (State.hostErr s a1 a2) := by
  unfold State.hostErr
  with_reducible repeat'
    first
    | assumption | intro _
    | ((fail_if_no_progress extract_lets +onlyGivenNames z); try (refine Kept.have p v z ?_ ?_; on_goal 1 => unfold z; on_goal 2 => (try clear_value z)))
    | apply State.hirq_kept | (fail_if_no_progress refine Kept.upd ?_ rfl) | refine Kept.ite ?_ ?_

theorem State.hostMisaligned_kept {a1} (h : Kept p v s) : Kept p v (State.hostMisaligned s a1) := by
  unfold State.hostMisaligned
  with_reducible repeat'
    first
    | assumption
    | ((fail_if_no_progress extract_lets +onlyGivenNames z); try (refine Kept.have p v z ?_ ?_; on_goal 1 => unfold z; on_goal 2 => (try clear_value z)))
    | apply State.hostErr_kept | (fail_if_no_progress refine Kept.upd ?_ rfl)

theorem State.mailboxWrite_kept {m a2 a3} (h : Kept p v s) : Kept p v (s.mailboxWrite m a2 a3) := by
  unfold State.mailboxWrite
  extract_lets box mb
  exact Kept.ite (fun _ => Kept.upd h rfl) fun _ => Kept.ite (fun _ => Kept.upd h rfl) fun _ =>
    Kept.updMb h fun k => Memory.wf_writeLE k ..

theorem State.hostRead_kept {a1} (h : Kept p v s) : Kept p v (State.hostRead s a1) := by
  unfold State.hostRead
  with_reducible repeat'
    first
    | assumption | intro _ | apply State.hostMisaligned_kept | apply State.answer_kept | apply State.readFx_kept
    | apply State.hostErr_kept | refine Kept.ite ?_ ?_ | split

theorem execRegisterRead_kept {a1} (h : Kept p v s) : KeptOut p v (execRegisterRead a1 s) := KeptOut.mk_next
  (State.hostRead_kept h)

theorem State.regWrite_kept {a1 a2 a3} (h : Kept p v s) : Kept p v (State.regWrite s a1 a2 a3) := by
  unfold State.regWrite
  with_reducible repeat' first | assumption | apply State.doorbell_kept | apply State.globWrite_kept | split

theorem State.hostWrite_kept {a1 a2} (h : Kept p v s) : Kept p v (State.hostWrite s a1 a2) := by
  unfold State.hostWrite
  with_reducible repeat'
    first
    | assumption | intro _
    | ((fail_if_no_progress extract_lets +onlyGivenNames z); try (refine Kept.have p v z ?_ ?_; on_goal 1 => unfold z; on_goal 2 => (try clear_value z)))
    | apply State.hostMisaligned_kept | apply State.mailboxWrite_kept | apply State.regWrite_kept
    | apply State.hostErr_kept | (fail_if_no_progress refine Kept.upd ?_ rfl) | refine Kept.ite ?_ ?_ | split

theorem execRegisterWrite_kept {a1 a2} (h : Kept p v s) : KeptOut p v (execRegisterWrite a1 a2 s) := KeptOut.mk_next
  (State.hostWrite_kept h)

/-! ### Micro -/

theorem State.modMic_kept {a1 a2} (h : Kept p v s) : Kept p v (State.modMic s a1 a2) := State.modSeq_kept h

theorem State.modCond_kept {a1 a2} (h : Kept p v s) : Kept p v (State.modCond s a1 a2) := State.modSeq_kept h

theorem State.fetchHead_kept {a1} (h : Kept p v s) : Kept p v (State.fetchHead s a1) := by
  unfold State.fetchHead
  with_reducible repeat'
    first
    | assumption | apply State.fetchAt_kept | apply State.modMic_kept | refine KeptFetched.of_ok ?_ (by assumption)
    | refine KeptFetched.of_exn ?_ (by assumption) | refine KeptFetched.of_wait ?_ (by assumption) | split

theorem State.fetchNext_kept {a1} (h : Kept p v s) : Kept p v (State.fetchNext s a1) := by
  unfold State.fetchNext
  with_reducible repeat'
    first
    | assumption
    | ((fail_if_no_progress extract_lets +onlyGivenNames z); try (refine Kept.have p v z ?_ ?_; on_goal 1 => unfold z; on_goal 2 => (try clear_value z)))
    | apply State.shadowRead_kept | apply State.modMic_kept | refine KeptOptFst.of_some ?_ (by assumption) | split

theorem State.fetchCycle_kept {a1} (h : Kept p v s) : Kept p v (State.fetchCycle s a1) := by
  unfold State.fetchCycle
  with_reducible repeat'
    first
    | assumption | intro _
    | ((fail_if_no_progress extract_lets +onlyGivenNames z); try (refine Kept.have p v z ?_ ?_; on_goal 1 => unfold z; on_goal 2 => (try clear_value z)))
    | apply State.fetchHead_kept | apply State.fresh_kept | apply State.fetchNext_kept | refine Kept.ite ?_ ?_

theorem State.microfault_kept {a1 a2 a3 a4} (h : Kept p v s) : Kept p v (State.microfault s a1 a2 a3 a4) := by
  unfold State.microfault
  with_reducible repeat'
    first
    | assumption
    | ((fail_if_no_progress extract_lets +onlyGivenNames z); try (refine Kept.have p v z ?_ ?_; on_goal 1 => unfold z; on_goal 2 => (try clear_value z)))
    | apply State.modSeq_kept | apply State.record_kept | apply State.breakLock_kept | apply State.abandon_kept
    | apply State.dropRunning_kept | apply State.dropPrefetch_kept

theorem State.pushRead_kept {a1 a2 a3} (h : Kept p v s) : Kept p v (State.pushRead s a1 a2 a3) := State.modMic_kept h

theorem State.busLatch_kept {a1 a2} (h : Kept p v s) : Kept p v (State.busLatch s a1 a2) := State.modSeq_kept h

theorem State.lockUnit_kept {a1 a2 a3} (h : Kept p v s) : KeptFst p v (State.lockUnit s a1 a2 a3) := by
  unfold State.lockUnit
  with_reducible repeat'
    first
    | assumption
    | ((fail_if_no_progress extract_lets +onlyGivenNames z); try (refine Kept.have p v z ?_ ?_; on_goal 1 => unfold z; on_goal 2 => (try clear_value z)))
    | apply KeptFst.mk_pair | apply State.modCond_kept | apply State.modSeq_kept | split

theorem State.memAccess_kept {a1 a2 a3} (h : Kept p v s) : Kept p v (State.memAccess s a1 a2 a3) := by
  unfold State.memAccess
  with_reducible repeat'
    first
    | assumption | intro _
    | ((fail_if_no_progress extract_lets +onlyGivenNames z); try (refine Kept.have p v z ?_ ?_; on_goal 1 => unfold z; on_goal 2 => (try clear_value z)))
    | apply State.busLatch_kept | apply State.modSeq_kept | apply State.pushRead_kept | apply State.galWrite_kept
    | apply State.galReadFx_kept | apply State.lockUnit_kept | apply State.modMic_kept | apply State.memWrite_kept
    | apply State.memRead_kept | refine KeptAcc.of_ok ?_ (by assumption) | refine KeptAcc.of_bus ?_ (by assumption)
    | refine KeptAcc.of_wait ?_ (by assumption) | apply KeptFst.fst | refine Kept.ite ?_ ?_ | split

theorem State.mulUnit_kept {a1 a2 a3 a4} (h : Kept p v s) : Kept p v (State.mulUnit s a1 a2 a3 a4) := by
  unfold State.mulUnit
  with_reducible repeat' first | assumption | intro _ | apply State.modSeq_kept | refine Kept.ite ?_ ?_

theorem State.poolUnit_kept {a1 a2} (h : Kept p v s) : Kept p v (State.poolUnit s a1 a2) := by
  unfold State.poolUnit
  with_reducible repeat'
    first
    | assumption | intro _ | apply State.modCond_kept | apply State.poolGrant_kept | refine Kept.ite ?_ ?_ | split

theorem State.latchExn_kept {a1 a2} (h : Kept p v s) : Kept p v (State.latchExn s a1 a2) := State.modSeq_kept h

theorem State.nextStep_kept {a1 a2} (h : Kept p v s) : KeptOptStep p v (State.nextStep s a1 a2) := by
  unfold State.nextStep
  with_reducible repeat'
    first
    | assumption
    | ((fail_if_no_progress extract_lets +onlyGivenNames z); try (refine Kept.have p v z ?_ ?_; on_goal 1 => unfold z; on_goal 2 => (try clear_value z)))
    | apply KeptOptStep.mk_some | exact KeptOptStep.none | apply KeptPrep.mk_ok | apply KeptStep.mk_stall
    | apply KeptStep.mk_err | exact KeptStep.mk_retry | apply State.modRegs_kept | apply prepare_kept
    | apply longStep_kept | refine KeptPrep.of_ok ?_ (by assumption) | refine KeptPrep.of_err ?_ (by assumption)
    | refine KeptPrep.of_stall ?_ (by assumption) | split

theorem State.stepTook_kept {a1 a2 a3 a4 a5} (h : Kept p v s) : Kept p v (State.stepTook s a1 a2 a3 a4 a5) := by
  unfold State.stepTook
  with_reducible repeat'
    first
    | assumption
    | ((fail_if_no_progress extract_lets +onlyGivenNames z); try (refine Kept.have p v z ?_ ?_; on_goal 1 => unfold z; on_goal 2 => (try clear_value z)))
    | apply State.consumed_kept | apply State.modSeq_kept | apply State.modCond_kept

theorem State.strmStep_kept {q l w} (h : Kept p v s) : Kept p v (s.strmStep q l w) := by
  unfold State.strmStep
  extract_lets r0 again
  have k := State.nextStep_kept (a1 := q) (a2 := l) h
  split
  · exact State.stepTook_kept h
  · exact State.stepTook_kept (KeptStep.of_more (KeptOptStep.of_some k ‹_›) rfl)
  · exact State.stepTook_kept (KeptStep.of_last (KeptOptStep.of_some k ‹_›) rfl)
  · exact State.modSeq_kept (KeptStep.of_stall (KeptOptStep.of_some k ‹_›) rfl)
  · exact State.latchExn_kept (State.modRegs_kept (KeptStep.of_err (KeptOptStep.of_some k ‹_›) rfl))
  · exact State.modCond_kept h

theorem State.strmBind_kept {a1} (h : Kept p v s) : Kept p v (State.strmBind s a1) := by
  unfold State.strmBind
  with_reducible repeat'
    first
    | assumption | intro _
    | ((fail_if_no_progress extract_lets +onlyGivenNames z); try (refine Kept.have p v z ?_ ?_; on_goal 1 => unfold z; on_goal 2 => (try clear_value z)))
    | apply State.modCond_kept | apply State.newXfer_kept | apply State.bindLine_kept | apply State.resolveBound_kept
    | refine Kept.ite ?_ ?_ | split

theorem State.strmLoad_kept {a1} (h : Kept p v s) : Kept p v (State.strmLoad s a1) := by
  unfold State.strmLoad
  with_reducible repeat'
    first
    | assumption
    | ((fail_if_no_progress extract_lets +onlyGivenNames z); try (refine Kept.have p v z ?_ ?_; on_goal 1 => unfold z; on_goal 2 => (try clear_value z)))
    | apply State.modMic_kept | apply State.modCond_kept

theorem State.strmStore_kept {a1} (h : Kept p v s) : Kept p v (State.strmStore s a1) := by
  unfold State.strmStore
  with_reducible repeat' first | assumption | apply State.modMic_kept | apply State.modRegs_kept | split

theorem State.strmUnit_kept {a1 a2} (h : Kept p v s) : Kept p v (State.strmUnit s a1 a2) := by
  unfold State.strmUnit
  with_reducible repeat'
    first
    | assumption | intro _
    | ((fail_if_no_progress extract_lets +onlyGivenNames z); try (refine Kept.have p v z ?_ ?_; on_goal 1 => unfold z; on_goal 2 => (try clear_value z)))
    | apply State.strmStep_kept | apply State.strmBind_kept | apply State.strmLoad_kept | apply State.strmStore_kept
    | refine Kept.ite ?_ ?_ | split | dsimp -zeta +zetaDelta only

theorem State.mprtFetch_kept {a1} (h : Kept p v s) : Kept p v (State.mprtFetch s a1) := by
  unfold State.mprtFetch
  with_reducible repeat'
    first
    | assumption
    | ((fail_if_no_progress extract_lets +onlyGivenNames z); try (refine Kept.have p v z ?_ ?_; on_goal 1 => unfold z; on_goal 2 => (try clear_value z)))
    | apply State.addReq_kept | apply State.newXfer_kept | apply State.latchExn_kept | split
    | dsimp -zeta +zetaDelta only

theorem State.mprtPut_kept {a1} (h : Kept p v s) : Kept p v (State.mprtPut s a1) := by
  unfold State.mprtPut
  with_reducible repeat'
    first
    | assumption
    | ((fail_if_no_progress extract_lets +onlyGivenNames z); try (refine Kept.have p v z ?_ ?_; on_goal 1 => unfold z; on_goal 2 => (try clear_value z)))
    | apply State.newXfer_kept | apply State.addReq_kept | apply State.latchExn_kept | split

theorem State.mprtChunk_kept {a1 a2 a3} (h : Kept p v s) : Kept p v (State.mprtChunk s a1 a2 a3) := by
  unfold State.mprtChunk
  with_reducible repeat'
    first
    | assumption | intro _
    | ((fail_if_no_progress extract_lets +onlyGivenNames z); try (refine Kept.have p v z ?_ ?_; on_goal 1 => unfold z; on_goal 2 => (try clear_value z)))
    | apply State.ensureWrites_kept | apply State.modMic_kept | apply State.ensureChunk_kept | apply KeptFst.fst
    | refine Kept.ite ?_ ?_ | split

theorem State.mprtUnit_kept {a1 a2} (h : Kept p v s) : Kept p v (State.mprtUnit s a1 a2) := by
  unfold State.mprtUnit
  with_reducible repeat'
    first
    | assumption
    | ((fail_if_no_progress extract_lets +onlyGivenNames z); try (refine Kept.have p v z ?_ ?_; on_goal 1 => unfold z; on_goal 2 => (try clear_value z)))
    | apply State.mprtChunk_kept | apply State.mprtFetch_kept | apply State.mprtPut_kept
    | apply State.shadowFetch_kept | apply State.modMic_kept | apply State.releaseLines_kept | apply State.raEnd_kept
    | refine KeptShadow.of_on ?_ (by assumption) | split

theorem State.evtUnit_kept {a1 a2 a3 a4} (h : Kept p v s) : Kept p v (State.evtUnit s a1 a2 a3 a4) := by
  unfold State.evtUnit
  with_reducible repeat'
    first
    | assumption
    | ((fail_if_no_progress extract_lets +onlyGivenNames z); try (refine Kept.have p v z ?_ ?_; on_goal 1 => unfold z; on_goal 2 => (try clear_value z)))
    | apply State.publish_kept | apply State.modSeq_kept | apply State.stim_kept | apply State.modMic_kept
    | apply State.timerAck_kept | split

theorem State.decUnit_kept {a1 a2 a3 a4} (h : Kept p v s) : Kept p v (State.decUnit s a1 a2 a3 a4) := by
  unfold State.decUnit
  with_reducible repeat'
    first
    | assumption | apply State.modSeq_kept | apply State.flow_kept | apply State.modMic_kept | split

theorem State.latchIllegal_kept {a1 a2} (h : Kept p v s) : Kept p v (State.latchIllegal s a1 a2) := State.modSeq_kept
  h

theorem State.mapEntry_kept {a1 a2} (h : Kept p v s) : KeptSnd p v (State.mapEntry s a1 a2) := by
  unfold State.mapEntry
  with_reducible repeat'
    first
    | assumption | intro _
    | ((fail_if_no_progress extract_lets +onlyGivenNames z); try (refine Kept.have p v z ?_ ?_; on_goal 1 => unfold z; on_goal 2 => (try clear_value z)))
    | apply KeptSnd.mk_pair | apply State.storeCorrected_kept | refine Kept.ite ?_ ?_ | split

theorem State.goMap_kept {a1 a2 a3} (h : Kept p v s) : Kept p v (State.goMap s a1 a2 a3) := by
  unfold State.goMap
  with_reducible repeat'
    first
    | assumption
    | ((fail_if_no_progress extract_lets +onlyGivenNames z); try (refine Kept.have p v z ?_ ?_; on_goal 1 => unfold z; on_goal 2 => (try clear_value z)))
    | apply State.cycle_kept | apply State.mapEntry_kept | apply State.microfault_kept | apply State.modMic_kept
    | refine KeptSnd.of_pair ?_ (by assumption) | split

theorem State.enterVec_kept {a1 a2 a3} (h : Kept p v s) : Kept p v (State.enterVec s a1 a2 a3) := by
  unfold State.enterVec
  with_reducible repeat'
    first
    | assumption
    | ((fail_if_no_progress extract_lets +onlyGivenNames z); try (refine Kept.have p v z ?_ ?_; on_goal 1 => unfold z; on_goal 2 => (try clear_value z)))
    | apply State.landAll_kept | apply State.modSeq_kept | apply State.modMic_kept | apply State.goMap_kept

theorem State.goIndex_kept {a1 a2 a3} (h : Kept p v s) : Kept p v (State.goIndex s a1 a2 a3) := by
  unfold State.goIndex
  with_reducible repeat'
    first
    | assumption | intro _ | apply State.mapEntry_kept | apply State.enterVec_kept | apply State.latchIllegal_kept
    | apply State.cycle_kept | apply State.goMap_kept | refine KeptSnd.of_pair ?_ (by assumption)
    | refine Kept.ite ?_ ?_ | split

theorem State.dispPrimary_kept {a1 a2 a3} (h : Kept p v s) : Kept p v (State.dispPrimary s a1 a2 a3) := by
  unfold State.dispPrimary
  with_reducible repeat'
    first
    | assumption | intro _
    | ((fail_if_no_progress extract_lets +onlyGivenNames z); try (refine Kept.have p v z ?_ ?_; on_goal 1 => unfold z; on_goal 2 => (try clear_value z)))
    | apply State.modMic_kept | apply State.bpHalt_kept | apply State.goMap_kept | apply State.goIndex_kept
    | refine Kept.ite ?_ ?_ | split | dsimp -zeta +zetaDelta only

theorem State.pairPath_kept {a1 a2} (h : Kept p v s) : Kept p v (State.pairPath s a1 a2) := by
  unfold State.pairPath
  with_reducible repeat'
    first
    | assumption
    | ((fail_if_no_progress extract_lets +onlyGivenNames z); try (refine Kept.have p v z ?_ ?_; on_goal 1 => unfold z; on_goal 2 => (try clear_value z)))
    | apply State.enterVec_kept | apply State.latchIllegal_kept | apply State.modRegs_kept | apply State.modSeq_kept
    | apply State.cycle_kept | apply State.modMic_kept | split

theorem State.nac_kept {a1 a2 a3 a4} (h : Kept p v s) : Kept p v (State.nac s s2 a1 a2 a3 a4) := by
  unfold State.nac
  with_reducible repeat'
    first
    | assumption | intro _
    | ((fail_if_no_progress extract_lets +onlyGivenNames z); try (refine Kept.have p v z ?_ ?_; on_goal 1 => unfold z; on_goal 2 => (try clear_value z)))
    | apply State.modMic_kept | apply State.fetchHead_kept | apply State.dispPrimary_kept | apply State.goIndex_kept
    | apply State.park_kept | apply State.enterVec_kept | refine Kept.ite ?_ ?_ | split

theorem State.memAsleep_kept {a1 a2 a3} (h : Kept p v s) : KeptOpt p v (State.memAsleep s a1 a2 a3) := by
  unfold State.memAsleep
  with_reducible repeat'
    first
    | assumption
    | ((fail_if_no_progress extract_lets +onlyGivenNames z); try (refine Kept.have p v z ?_ ?_; on_goal 1 => unfold z; on_goal 2 => (try clear_value z)))
    | apply KeptOpt.mk_some | exact KeptOpt.none | apply State.wakeBanks_kept | split

theorem State.microHold_kept {a1 a2 a3} (h : Kept p v s) : KeptOpt p v (State.microHold s a1 a2 a3) := by
  unfold State.microHold
  with_reducible repeat'
    first
    | assumption
    | ((fail_if_no_progress extract_lets +onlyGivenNames z); try (refine Kept.have p v z ?_ ?_; on_goal 1 => unfold z; on_goal 2 => (try clear_value z)))
    | apply KeptOpt.mk_some | apply State.memAsleep_kept | split

theorem State.units_kept {a1 a2 a3 a4} (h : Kept p v s) : Kept p v (State.units s a1 a2 a3 a4) := by
  unfold State.units
  with_reducible repeat'
    first
    | assumption
    | ((fail_if_no_progress extract_lets +onlyGivenNames z); try (refine Kept.have p v z ?_ ?_; on_goal 1 => unfold z; on_goal 2 => (try clear_value z)))
    | apply State.modSeq_kept | apply State.memAccess_kept | apply State.poolUnit_kept | apply State.mulUnit_kept
    | apply State.mprtUnit_kept | apply State.strmUnit_kept | apply State.evtUnit_kept | apply State.modMic_kept

theorem State.microStepped_kept {a1} (h : Kept p v s) : Kept p v (State.microStepped s a1) := by
  unfold State.microStepped
  with_reducible repeat'
    first
    | assumption | intro _
    | ((fail_if_no_progress extract_lets +onlyGivenNames z); try (refine Kept.have p v z ?_ ?_; on_goal 1 => unfold z; on_goal 2 => (try clear_value z)))
    | apply State.modSeq_kept | apply State.haltSeq_kept | refine Kept.ite ?_ ?_

theorem State.actWord_kept {a1 a2 a3 a4} (h : Kept p v s) : Kept p v (State.actWord s a1 a2 a3 a4) := by
  unfold State.actWord
  with_reducible repeat'
    first
    | assumption | intro _
    | ((fail_if_no_progress extract_lets +onlyGivenNames z); try (refine Kept.have p v z ?_ ?_; on_goal 1 => unfold z; on_goal 2 => (try clear_value z)))
    | apply State.fresh_kept | apply State.units_kept | apply State.cycle_kept | apply State.thirdFault_kept
    | apply State.decUnit_kept | apply State.modCond_kept | apply State.microStepped_kept | apply State.nac_kept
    | refine Kept.ite ?_ ?_

theorem State.microBreak_kept {a1} (h : Kept p v s) : Kept p v (State.microBreak s a1) := State.haltSeq_kept
  (State.modSeq_kept h)

theorem State.issueWord_kept {a1} (h : Kept p v s) : Kept p v (State.issueWord s a1) := by
  unfold State.issueWord
  with_reducible repeat'
    first
    | assumption | intro _
    | ((fail_if_no_progress extract_lets +onlyGivenNames z); try (refine Kept.have p v z ?_ ?_; on_goal 1 => unfold z; on_goal 2 => (try clear_value z)))
    | apply State.microfault_kept | apply State.microBreak_kept | apply State.microHold_kept | apply State.modSeq_kept
    | apply State.storeCorrected_kept | apply State.modMic_kept | apply State.enterVec_kept | apply State.actWord_kept
    | refine KeptOpt.of_some ?_ (by assumption) | refine Kept.ite ?_ ?_ | split

theorem State.chain_kept {a1 a2} (h : Kept p v s) : Kept p v (State.chain s a1 a2) := by
  unfold State.chain
  with_reducible repeat'
    first
    | assumption | intro _
    | ((fail_if_no_progress extract_lets +onlyGivenNames z); try (refine Kept.have p v z ?_ ?_; on_goal 1 => unfold z; on_goal 2 => (try clear_value z)))
    | apply State.pairPath_kept | apply State.modSeq_kept | apply State.dispPrimary_kept | apply State.issueWord_kept
    | refine Kept.ite ?_ ?_

theorem State.microIssue_kept {a1} (h : Kept p v s) : Kept p v (State.microIssue s a1) := by
  unfold State.microIssue
  with_reducible repeat'
    first
    | assumption | intro _
    | ((fail_if_no_progress extract_lets +onlyGivenNames z); try (refine Kept.have p v z ?_ ?_; on_goal 1 => unfold z; on_goal 2 => (try clear_value z)))
    | apply State.fetchCycle_kept | apply State.chain_kept | apply State.issueWord_kept | refine Kept.ite ?_ ?_

theorem execMicrowordIssue_kept {a1} (h : Kept p v s) : KeptOut p v (execMicrowordIssue a1 s) := KeptOut.mk_next
  (State.microIssue_kept h)

theorem State.readReturn_kept {a1} (h : Kept p v s) : Kept p v (State.readReturn s a1) := by
  unfold State.readReturn
  with_reducible repeat' first | assumption | intro _ | apply State.modMic_kept | refine Kept.ite ?_ ?_ | split

theorem execScratchReadReturn_kept {a1} (h : Kept p v s) : KeptOut p v (execScratchReadReturn a1 s) := KeptOut.mk_next
  (State.readReturn_kept h)

theorem State.fabEnd_kept {a1 a2 a3 a4} (h : Kept p v s) : Kept p v (State.fabEnd s a1 a2 a3 a4) := State.modSeq_kept
  h

theorem State.fabData_kept {a1 a2 a3 a4} (h : Kept p v s) : Kept p v (State.fabData s a1 a2 a3 a4) :=
  State.modMic_kept (State.fabEnd_kept h)

theorem State.fabricRequest_kept {a1} (h : Kept p v s) : Kept p v (State.fabricRequest s a1) := by
  unfold State.fabricRequest
  with_reducible repeat'
    first
    | assumption | intro _ | apply State.memWrite_kept | apply State.fabEnd_kept | apply State.memRead_kept
    | apply State.fabData_kept | refine KeptAcc.of_ok ?_ (by assumption) | refine KeptAcc.of_bus ?_ (by assumption)
    | refine KeptAcc.of_wait ?_ (by assumption) | refine Kept.ite ?_ ?_ | split

theorem execFabricRequest_kept {a1} (h : Kept p v s) : KeptOut p v (execFabricRequest a1 s) := KeptOut.mk_next
  (State.fabricRequest_kept h)

/-! ### Firmware -/

theorem State.engInfo_kept {a1} (h : Kept p v s) : Kept p v (State.engInfo s a1) := State.reply_kept h

theorem execEngInfo_kept {a1} (h : Kept p v s) : KeptOut p v (execEngInfo a1 s) := by
  unfold execEngInfo
  with_reducible repeat'
    first
    | assumption | intro _ | apply KeptOut.mk_next | apply State.command_kept | apply State.engInfo_kept

theorem execEngStatus_kept {a1} (h : Kept p v s) : KeptOut p v (execEngStatus a1 s) := by
  unfold execEngStatus
  with_reducible repeat'
    first
    | assumption | intro _ | apply KeptOut.mk_next | apply State.command_kept | apply State.reply_kept

theorem State.clearAuto_kept (h : Kept p v s) : Kept p v (State.clearAuto s) := by
  unfold State.clearAuto
  with_reducible repeat' first | assumption | intro _ | apply State.each_kept | apply State.modGal_kept

theorem State.closeWin_kept (h : Kept p v s) : Kept p v (State.closeWin s) := by
  unfold State.closeWin
  with_reducible repeat'
    first
    | assumption
    | ((fail_if_no_progress extract_lets +onlyGivenNames z); try (refine Kept.have p v z ?_ ?_; on_goal 1 => unfold z; on_goal 2 => (try clear_value z)))
    | (fail_if_no_progress refine Kept.upd ?_ rfl)

theorem State.enterState_kept {a1 a2} (h : Kept p v s) : Kept p v (State.enterState s a1 a2) := by
  unfold State.enterState
  with_reducible repeat'
    first
    | assumption | intro _
    | ((fail_if_no_progress extract_lets +onlyGivenNames z); try (refine Kept.have p v z ?_ ?_; on_goal 1 => unfold z; on_goal 2 => (try clear_value z)))
    | apply State.closeWin_kept | apply State.clearAuto_kept | apply State.reply_kept | apply State.setEng_kept
    | refine Kept.ite ?_ ?_

theorem State.engState_kept {a1} (h : Kept p v s) : Kept p v (State.engState s a1) := by
  unfold State.engState
  with_reducible repeat'
    first
    | assumption | intro _
    | ((fail_if_no_progress extract_lets +onlyGivenNames z); try (refine Kept.have p v z ?_ ?_; on_goal 1 => unfold z; on_goal 2 => (try clear_value z)))
    | apply State.command_kept | apply State.reply_kept | apply State.enterState_kept | split

theorem execEngState_kept {a1} (h : Kept p v s) : KeptOut p v (execEngState a1 s) := KeptOut.mk_next
  (State.engState_kept h)

theorem execWinOpen_kept {a1} (h : Kept p v s) : KeptOut p v (execWinOpen a1 s) := by
  unfold execWinOpen
  with_reducible repeat'
    first
    | assumption | intro _
    | ((fail_if_no_progress extract_lets +onlyGivenNames z); try (refine Kept.have p v z ?_ ?_; on_goal 1 => unfold z; on_goal 2 => (try clear_value z)))
    | apply KeptOut.mk_next | apply State.command_kept | apply State.reply_kept
    | (fail_if_no_progress refine Kept.upd ?_ rfl)

theorem execWinClose_kept {a1} (h : Kept p v s) : KeptOut p v (execWinClose a1 s) := by
  unfold execWinClose
  with_reducible repeat'
    first
    | assumption | intro _ | apply KeptOut.mk_next | apply State.command_kept | apply State.reply_kept
    | apply State.closeWin_kept

theorem State.stageCmd_kept {a1 a2 a3 a4 a5 a6 f7} (h : Kept p v s) (hf7 : ∀ y0 y1, Kept p v y1 → Kept p v (f7 y0 y1)) : Kept p v (State.stageCmd s a1 a2 a3 a4 a5 a6 f7) := by
  unfold State.stageCmd
  with_reducible repeat'
    first
    | assumption | intro _
    | ((fail_if_no_progress extract_lets +onlyGivenNames z); try (refine Kept.have p v z ?_ ?_; on_goal 1 => unfold z; on_goal 2 => (try clear_value z)))
    | apply State.command_kept | apply State.xferDo_kept | apply State.stageCopy_kept | apply State.reply_kept
    | refine hf7 _ _ ?_ | apply KeptFst.fst | refine Kept.ite ?_ ?_

theorem State.stageSet_kept {a1 a2} (h : Kept p v s) : Kept p v (State.stageSet a1 a2 s) := by
  unfold State.stageSet
  with_reducible repeat'
    first
    | assumption
    | ((fail_if_no_progress extract_lets +onlyGivenNames z); try (refine Kept.have p v z ?_ ?_; on_goal 1 => unfold z; on_goal 2 => (try clear_value z)))
    | apply State.reply_kept | (fail_if_no_progress refine Kept.upd ?_ rfl)

theorem execUcodeStage_kept {a1 a2} (h : Kept p v s) : KeptOut p v (execUcodeStage a1 a2 s) := by
  unfold execUcodeStage
  with_reducible repeat'
    first
    | assumption | intro _ | apply KeptOut.mk_next | apply State.stageCmd_kept | apply State.stageSet_kept

theorem execMapLoad_kept {a1 a2} (h : Kept p v s) : KeptOut p v (execMapLoad a1 a2 s) := by
  unfold execMapLoad
  with_reducible repeat'
    first
    | assumption | intro _ | apply KeptOut.mk_next | apply State.stageCmd_kept | apply State.stageSet_kept

theorem State.authParts_kept {l tags b} (h : Kept p v s) : KeptSnd p v (s.authParts l tags b) := by
  induction l generalizing s tags with
  | nil => exact h
  | cons x xs ih =>
    unfold State.authParts
    split
    · exact h
    · split
      · exact ih (KeptSnd.of_pair (State.authenticate_kept h) ‹_›)
      · exact KeptSnd.of_pair (State.authenticate_kept h) ‹_›

theorem State.verifySets_kept {a1 a2} (h : Kept p v s) : Kept p v (State.verifySets s a1 a2) := by
  unfold State.verifySets
  with_reducible repeat'
    first
    | assumption | intro _
    | ((fail_if_no_progress extract_lets +onlyGivenNames z); try (refine Kept.have p v z ?_ ?_; on_goal 1 => unfold z; on_goal 2 => (try clear_value z)))
    | apply State.reply_kept | (fail_if_no_progress refine Kept.upd ?_ rfl) | refine Kept.ite ?_ ?_ | split

theorem State.ucodeVerify_kept {a1 a2} (h : Kept p v s) : Kept p v (State.ucodeVerify s a1 a2) := by
  unfold State.ucodeVerify
  with_reducible repeat'
    first
    | assumption | intro _
    | ((fail_if_no_progress extract_lets +onlyGivenNames z); try (refine Kept.have p v z ?_ ?_; on_goal 1 => unfold z; on_goal 2 => (try clear_value z)))
    | apply State.command_kept | apply State.reply_kept | apply State.authParts_kept | apply State.verifySets_kept
    | refine KeptSnd.of_pair ?_ (by assumption) | refine Kept.ite ?_ ?_ | split | dsimp -zeta +zetaDelta only

theorem execUcodeVerify_kept {a1 a2} (h : Kept p v s) : KeptOut p v (execUcodeVerify a1 a2 s) := KeptOut.mk_next
  (State.ucodeVerify_kept h)

theorem State.dropCommit_kept {a1} (h : Kept p v s) : Kept p v (State.dropCommit s a1) := by
  unfold State.dropCommit
  with_reducible repeat'
    first
    | assumption
    | ((fail_if_no_progress extract_lets +onlyGivenNames z); try (refine Kept.have p v z ?_ ?_; on_goal 1 => unfold z; on_goal 2 => (try clear_value z)))
    | (fail_if_no_progress refine Kept.upd ?_ rfl)

theorem State.keepCommit_kept {a1} (h : Kept p v s) : Kept p v (State.keepCommit s a1) := by
  unfold State.keepCommit
  with_reducible repeat'
    first
    | assumption
    | ((fail_if_no_progress extract_lets +onlyGivenNames z); try (refine Kept.have p v z ?_ ?_; on_goal 1 => unfold z; on_goal 2 => (try clear_value z)))
    | apply State.dropCommit_kept | (fail_if_no_progress refine Kept.upd ?_ rfl)

theorem State.commitEnd_kept {a1 a2 a3 a4} (h : Kept p v s) : Kept p v (State.commitEnd s a1 a2 a3 a4) :=
  State.reply_kept (State.dropCommit_kept h)

theorem State.commitPartial_kept {a1 a2 a3} (h : Kept p v s) : Kept p v (State.commitPartial s a1 a2 a3) :=
  State.commitEnd_kept h

theorem State.commitGo_kept {c b l d tags} (h : Kept p v s) : Kept p v (State.commitGo c b l d tags s) := by
  induction l generalizing s b d tags with
  | nil => exact State.commitEnd_kept h
  | cons g rest ih =>
    have auth {set : ImgSet} {c : Bool} : KeptSnd p v (if c then s.authParts set.parts tags false else (none, s)) := by
      split
      · exact State.authParts_kept h
      · exact h
    unfold State.commitGo
    extract_lets keep set
    have hk (w : Bool) (s : State) (h : Kept p v s) : Kept p v (keep w s) := State.keepCommit_kept h
    clear_value keep
    refine Kept.ite (fun _ => hk _ _ (State.squeezeStart_kept h)) fun _ => Kept.ite (fun _ => hk _ _ h) fun _ =>
      Kept.ite (fun _ => State.commitPartial_kept h) fun _ => ?_
    split
    · have k := KeptSnd.of_pair auth ‹_›
      exact Kept.ite (fun _ => State.commitEnd_kept k) fun _ => State.commitPartial_kept k
    · have k := KeptSnd.of_pair auth ‹_›
      refine Kept.ite (fun _ => hk _ _ (State.commitBegin_kept k)) fun _ => ?_
      exact Kept.ite (fun _ => State.commitPartial_kept (State.commitGal_kept k)) fun _ => ih (State.commitGal_kept k)

theorem State.commitStart_kept {a1 a2 a3 a4} (h : Kept p v s) : Kept p v (State.commitStart s a1 a2 a3 a4) := by
  unfold State.commitStart
  with_reducible repeat'
    first
    | assumption | intro _
    | ((fail_if_no_progress extract_lets +onlyGivenNames z); try (refine Kept.have p v z ?_ ?_; on_goal 1 => unfold z; on_goal 2 => (try clear_value z)))
    | apply State.command_kept | apply State.commitGo_kept | apply State.behind_kept

theorem State.ucodeCommit_kept {a1 a2 a3 a4} (h : Kept p v s) : Kept p v (State.ucodeCommit s a1 a2 a3 a4) := by
  unfold State.ucodeCommit
  with_reducible repeat'
    first
    | assumption | intro _ | apply State.commitGo_kept | apply State.commitStart_kept | refine Kept.ite ?_ ?_ | split

theorem execUcodeCommit_kept {a1 a2 a3} (h : Kept p v s) : KeptOut p v (execUcodeCommit a1 a2 a3 s) :=
  KeptOut.mk_next (State.ucodeCommit_kept h)

theorem State.mpReset_kept {a1} (h : Kept p v s) : Kept p v (State.mpReset s a1) := by
  unfold State.mpReset
  with_reducible repeat'
    first
    | assumption | intro _
    | ((fail_if_no_progress extract_lets +onlyGivenNames z); try (refine Kept.have p v z ?_ ?_; on_goal 1 => unfold z; on_goal 2 => (try clear_value z)))
    | apply State.each_kept | apply State.modGal_kept | apply State.closeSession_kept | apply State.hirq_kept
    | (fail_if_no_progress refine Kept.upd ?_ rfl)

theorem State.rstBit_kept {a1} (h : Kept p v s) : Kept p v (State.rstBit s a1) := by
  unfold State.rstBit
  with_reducible repeat'
    first
    | assumption
    | ((fail_if_no_progress extract_lets +onlyGivenNames z); try (refine Kept.have p v z ?_ ?_; on_goal 1 => unfold z; on_goal 2 => (try clear_value z)))
    | (fail_if_no_progress refine Kept.upd ?_ rfl)

theorem State.fallBack_kept (h : Kept p v s) : Kept p v (State.fallBack s) := by
  unfold State.fallBack
  with_reducible repeat'
    first
    | assumption
    | ((fail_if_no_progress extract_lets +onlyGivenNames z); try (refine Kept.have p v z ?_ ?_; on_goal 1 => unfold z; on_goal 2 => (try clear_value z)))
    | apply State.record_kept | apply State.hirq_kept | (fail_if_no_progress refine Kept.upd ?_ rfl)

theorem State.ewdExpiry_kept (h : Kept p v s) : Kept p v (State.ewdExpiry s) := by
  unfold State.ewdExpiry
  with_reducible repeat'
    first
    | assumption | intro _
    | ((fail_if_no_progress extract_lets +onlyGivenNames z); try (refine Kept.have p v z ?_ ?_; on_goal 1 => unfold z; on_goal 2 => (try clear_value z)))
    | apply State.mpReset_kept | apply State.rstBit_kept | apply State.record_kept | apply State.fallBack_kept
    | (fail_if_no_progress refine Kept.upd ?_ rfl) | refine Kept.ite ?_ ?_

theorem execEngineWatchdogExpiry_kept (h : Kept p v s) : KeptOut p v (execEngineWatchdogExpiry s) := KeptOut.mk_next
  (State.ewdExpiry_kept h)

theorem State.answerInterrupted_kept (h : Kept p v s) : Kept p v (State.answerInterrupted s) := by
  unfold State.answerInterrupted
  with_reducible repeat' first | assumption | intro _ | apply State.each_kept | apply State.reply_kept

theorem State.mpReturn_kept (h : Kept p v s) : Kept p v (State.mpReturn s) := by
  unfold State.mpReturn
  with_reducible repeat'
    first
    | assumption | intro _
    | ((fail_if_no_progress extract_lets +onlyGivenNames z); try (refine Kept.have p v z ?_ ?_; on_goal 1 => unfold z; on_goal 2 => (try clear_value z)))
    | apply State.hirq_kept | apply State.answerInterrupted_kept | apply State.each_kept | apply State.placeHeld_kept
    | apply State.squeezeCheck_kept | (fail_if_no_progress refine Kept.upd ?_ rfl) | refine Kept.ite ?_ ?_

theorem State.authImage_kept {a1 a2 a3 f4} (h : Kept p v s) (hf4 : ∀ y0, Kept p v y0 → Kept p v (f4 y0)) : Kept p v (State.authImage s a1 a2 a3 f4) := by
  unfold State.authImage
  with_reducible repeat'
    first
    | assumption | intro _ | apply State.reply_kept | apply State.authenticate_kept | refine hf4 _ ?_
    | refine KeptSnd.of_pair ?_ (by assumption) | refine Kept.ite ?_ ?_ | split

theorem State.fwStage_kept {a1 a2 a3} (h : Kept p v s) : Kept p v (State.fwStage s a1 a2 a3) := by
  unfold State.fwStage
  with_reducible repeat'
    first
    | assumption | intro _
    | ((fail_if_no_progress extract_lets +onlyGivenNames z); try (refine Kept.have p v z ?_ ?_; on_goal 1 => unfold z; on_goal 2 => (try clear_value z)))
    | apply State.stageCmd_kept | apply State.authImage_kept | apply State.reply_kept
    | (fail_if_no_progress refine Kept.upd ?_ rfl)

theorem execFwStage_kept {a1 a2 a3} (h : Kept p v s) : KeptOut p v (execFwStage a1 a2 a3 s) := KeptOut.mk_next
  (State.fwStage_kept h)

theorem State.fwSwitch_kept {a1} (h : Kept p v s) : Kept p v (State.fwSwitch s a1) := by
  unfold State.fwSwitch
  with_reducible repeat'
    first
    | assumption | intro _
    | ((fail_if_no_progress extract_lets +onlyGivenNames z); try (refine Kept.have p v z ?_ ?_; on_goal 1 => unfold z; on_goal 2 => (try clear_value z)))
    | apply State.command_kept | apply State.rstBit_kept | apply State.mpReset_kept | apply State.reply_kept

theorem execFwSwitch_kept {a1} (h : Kept p v s) : KeptOut p v (execFwSwitch a1 s) := KeptOut.mk_next
  (State.fwSwitch_kept h)

theorem State.patchLoad_kept {a1 a2 a3} (h : Kept p v s) : Kept p v (State.patchLoad s a1 a2 a3) := by
  unfold State.patchLoad
  with_reducible repeat'
    first
    | assumption | intro _
    | ((fail_if_no_progress extract_lets +onlyGivenNames z); try (refine Kept.have p v z ?_ ?_; on_goal 1 => unfold z; on_goal 2 => (try clear_value z)))
    | apply State.stageCmd_kept | apply State.authImage_kept | apply State.reply_kept
    | (fail_if_no_progress refine Kept.upd ?_ rfl) | refine Kept.ite ?_ ?_

theorem execPatchLoad_kept {a1 a2 a3} (h : Kept p v s) : KeptOut p v (execPatchLoad a1 a2 a3 s) := KeptOut.mk_next
  (State.patchLoad_kept h)

/-! ### Service -/

theorem State.galSqueeze_kept {a1} (h : Kept p v s) : Kept p v (State.galSqueeze s a1) := by
  unfold State.galSqueeze
  with_reducible repeat'
    first
    | assumption | intro _
    | ((fail_if_no_progress extract_lets +onlyGivenNames z); try (refine Kept.have p v z ?_ ?_; on_goal 1 => unfold z; on_goal 2 => (try clear_value z)))
    | apply State.command_kept | apply State.squeezeStart_kept | apply State.behind_kept

theorem execGalSqueeze_kept {a1} (h : Kept p v s) : KeptOut p v (execGalSqueeze a1 s) := KeptOut.mk_next
  (State.galSqueeze_kept h)

theorem State.galRelease_kept {a1} (h : Kept p v s) : Kept p v (State.galRelease s a1) := by
  unfold State.galRelease
  with_reducible repeat'
    first
    | assumption | intro _
    | ((fail_if_no_progress extract_lets +onlyGivenNames z); try (refine Kept.have p v z ?_ ?_; on_goal 1 => unfold z; on_goal 2 => (try clear_value z)))
    | apply State.command_kept | apply State.reply_kept | apply State.releaseGal_kept

theorem execGalRelease_kept {a1} (h : Kept p v s) : KeptOut p v (execGalRelease a1 s) := KeptOut.mk_next
  (State.galRelease_kept h)

theorem State.galFence_kept {a1} (h : Kept p v s) : Kept p v (State.galFence s a1) := by
  unfold State.galFence
  with_reducible repeat'
    first
    | assumption | intro _
    | ((fail_if_no_progress extract_lets +onlyGivenNames z); try (refine Kept.have p v z ?_ ?_; on_goal 1 => unfold z; on_goal 2 => (try clear_value z)))
    | apply State.command_kept | apply State.reply_kept | apply State.fence_kept

theorem execGalFence_kept {a1} (h : Kept p v s) : KeptOut p v (execGalFence a1 s) := KeptOut.mk_next
  (State.galFence_kept h)

theorem State.galPower_kept {a1 a2 a3 f4} (h : Kept p v s) (hf4 : ∀ y0 y1, Kept p v y1 → Kept p v (f4 y0 y1)) : Kept p v (State.galPower s a1 a2 a3 f4) := by
  unfold State.galPower
  with_reducible repeat'
    first
    | assumption | intro _
    | ((fail_if_no_progress extract_lets +onlyGivenNames z); try (refine Kept.have p v z ?_ ?_; on_goal 1 => unfold z; on_goal 2 => (try clear_value z)))
    | apply State.command_kept | apply State.behind_kept | refine hf4 _ _ ?_ | refine Kept.ite ?_ ?_

theorem State.powerDown_kept {a1 a2 a3} (h : Kept p v s) : Kept p v (State.powerDown a1 a2 a3 s) :=
  State.powerAdvance_kept (State.modGal_kept h)

theorem State.powerRaise_kept {a1 a2} (h : Kept p v s) : Kept p v (State.powerRaise a1 a2 s) :=
  State.powerOnStart_kept (State.modGal_kept h)

theorem execGalPowerOff_kept {a1} (h : Kept p v s) : KeptOut p v (execGalPowerOff a1 s) := by
  unfold execGalPowerOff
  with_reducible repeat'
    first
    | assumption | intro _ | apply KeptOut.mk_next | apply State.galPower_kept | apply State.powerDown_kept

theorem execGalPowerRetain_kept {a1} (h : Kept p v s) : KeptOut p v (execGalPowerRetain a1 s) := by
  unfold execGalPowerRetain
  with_reducible repeat'
    first
    | assumption | intro _ | apply KeptOut.mk_next | apply State.galPower_kept | apply State.powerDown_kept

theorem execGalPowerOn_kept {a1} (h : Kept p v s) : KeptOut p v (execGalPowerOn a1 s) := by
  unfold execGalPowerOn
  with_reducible repeat'
    first
    | assumption | intro _ | apply KeptOut.mk_next | apply State.galPower_kept | apply State.powerRaise_kept

theorem State.galQuery_kept {a1} (h : Kept p v s) : Kept p v (State.galQuery s a1) := by
  unfold State.galQuery
  with_reducible repeat'
    first
    | assumption | intro _
    | ((fail_if_no_progress extract_lets +onlyGivenNames z); try (refine Kept.have p v z ?_ ?_; on_goal 1 => unfold z; on_goal 2 => (try clear_value z)))
    | apply State.command_kept | apply State.reply_kept

theorem execGalQuery_kept {a1} (h : Kept p v s) : KeptOut p v (execGalQuery a1 s) := KeptOut.mk_next
  (State.galQuery_kept h)

theorem State.ctxCommand_kept {a1 a2 a3 f4} (h : Kept p v s) (hf4 : ∀ y0, Kept p v y0 → Kept p v (f4 y0)) : Kept p v (State.ctxCommand s a1 a2 a3 f4) := by
  unfold State.ctxCommand
  with_reducible repeat'
    first
    | assumption | intro _ | apply State.ctxTouch_kept | refine hf4 _ ?_ | refine Kept.ite ?_ ?_

theorem State.freeEntry_kept (h : Kept p v s) : KeptOptSnd p v s.freeEntry := by
  delta State.freeEntry
  with_reducible exact State.choose_kept h

theorem State.openCtx_kept {a1 a2 a3} (h : Kept p v s) : Kept p v (State.openCtx s a1 a2 a3) := by
  unfold State.openCtx
  with_reducible repeat'
    first
    | assumption
    | ((fail_if_no_progress extract_lets +onlyGivenNames z); try (refine Kept.have p v z ?_ ?_; on_goal 1 => unfold z; on_goal 2 => (try clear_value z)))
    | apply State.releaseOverlap_kept | apply State.store_kept | apply State.reply_kept

theorem State.ctxOpen_kept {m x} (h : Kept p v s) : Kept p v (s.ctxOpen m x) := by
  unfold State.ctxOpen
  refine State.ctxCommand_kept h fun y hy => ?_
  extract_lets c save spill any pick home
  refine State.command_kept hy fun z hz => State.xferDo_kept hz fun w hw => ?_
  have pk : KeptOptSnd p v (pick w) := by
    unfold pick
    split
    · with_reducible exact State.freeEntry_kept hw
    · exact hw
  clear_value pick
  split
  · next e _ => exact State.openCtx_kept (KeptOptSnd.of_some pk e)
  · exact hw

theorem execCtxOpen_kept {a1 a2} (h : Kept p v s) : KeptOut p v (execCtxOpen a1 a2 s) := KeptOut.mk_next
  (State.ctxOpen_kept h)

theorem State.killUnbound_kept {a1} (h : Kept p v s) : Kept p v (State.killUnbound s a1) := by
  unfold State.killUnbound
  with_reducible repeat'
    first
    | assumption | intro _
    | ((fail_if_no_progress extract_lets +onlyGivenNames z); try (refine Kept.have p v z ?_ ?_; on_goal 1 => unfold z; on_goal 2 => (try clear_value z)))
    | apply State.each_kept | apply State.finishItem_kept | apply State.modSeq_kept
    | (fail_if_no_progress refine Kept.upd ?_ rfl) | split

theorem State.closeCtx_kept {a1 a2} (h : Kept p v s) : Kept p v (State.closeCtx s a1 a2) := by
  unfold State.closeCtx
  with_reducible repeat'
    first
    | assumption
    | ((fail_if_no_progress extract_lets +onlyGivenNames z); try (refine Kept.have p v z ?_ ?_; on_goal 1 => unfold z; on_goal 2 => (try clear_value z)))
    | apply State.behind_kept | apply State.modSeq_kept | apply State.squeezeCheck_kept | apply State.freeNow_kept
    | apply State.killUnbound_kept | (fail_if_no_progress refine Kept.upd ?_ rfl) | split

theorem State.ctxClose_kept {a1} (h : Kept p v s) : Kept p v (State.ctxClose s a1) := by
  unfold State.ctxClose
  with_reducible repeat'
    first
    | assumption | intro _
    | ((fail_if_no_progress extract_lets +onlyGivenNames z); try (refine Kept.have p v z ?_ ?_; on_goal 1 => unfold z; on_goal 2 => (try clear_value z)))
    | apply State.ctxCommand_kept | apply State.command_kept | apply State.closeCtx_kept

theorem execCtxClose_kept {a1} (h : Kept p v s) : KeptOut p v (execCtxClose a1 s) := KeptOut.mk_next
  (State.ctxClose_kept h)

theorem State.ctxQuery_kept {a1} (h : Kept p v s) : Kept p v (State.ctxQuery s a1) := by
  unfold State.ctxQuery
  with_reducible repeat'
    first
    | assumption | intro _
    | ((fail_if_no_progress extract_lets +onlyGivenNames z); try (refine Kept.have p v z ?_ ?_; on_goal 1 => unfold z; on_goal 2 => (try clear_value z)))
    | apply State.ctxCommand_kept | apply State.command_kept | apply State.reply_kept

theorem execCtxQuery_kept {a1} (h : Kept p v s) : KeptOut p v (execCtxQuery a1 s) := KeptOut.mk_next
  (State.ctxQuery_kept h)

theorem State.writeSeg_kept {a1 a2 a3} (h : Kept p v s) : Kept p v (State.writeSeg s a1 a2 a3) := by
  unfold State.writeSeg
  with_reducible repeat'
    first
    | assumption | intro _
    | ((fail_if_no_progress extract_lets +onlyGivenNames z); try (refine Kept.have p v z ?_ ?_; on_goal 1 => unfold z; on_goal 2 => (try clear_value z)))
    | apply State.releaseOverlap_kept | apply State.store_kept | refine Kept.ite ?_ ?_

theorem State.segBind_kept {a1 a2} (h : Kept p v s) : Kept p v (State.segBind s a1 a2) := by
  unfold State.segBind
  with_reducible repeat'
    first
    | assumption | intro _
    | ((fail_if_no_progress extract_lets +onlyGivenNames z); try (refine Kept.have p v z ?_ ?_; on_goal 1 => unfold z; on_goal 2 => (try clear_value z)))
    | apply State.ctxCommand_kept | apply State.command_kept | apply State.mpAnswered_kept | apply State.reply_kept
    | apply State.writeSeg_kept | apply State.breakCtx_kept | split

theorem execSegBind_kept {a1 a2} (h : Kept p v s) : KeptOut p v (execSegBind a1 a2 s) := KeptOut.mk_next
  (State.segBind_kept h)

theorem State.loadProg_kept {a1 a2 a3 a4 a5} (h : Kept p v s) : Kept p v (State.loadProg s a1 a2 a3 a4 a5) := by
  unfold State.loadProg
  with_reducible repeat'
    first
    | assumption
    | ((fail_if_no_progress extract_lets +onlyGivenNames z); try (refine Kept.have p v z ?_ ?_; on_goal 1 => unfold z; on_goal 2 => (try clear_value z)))
    | apply State.store_kept | apply State.reply_kept | (fail_if_no_progress refine Kept.upd ?_ rfl)

theorem State.progLoad_kept {m x} (h : Kept p v s) : Kept p v (s.progLoad m x) := by
  delta State.progLoad
  with_reducible refine State.command_kept h ?_
  intro y hy
  with_reducible refine State.xferDo_kept hy ?_
  intro z hz
  split
  next => exact State.loadProg_kept (KeptOptSnd.of_some (State.choose_kept hz) ‹_›)
  next => exact hz

theorem execProgLoad_kept {a1 a2} (h : Kept p v s) : KeptOut p v (execProgLoad a1 a2 s) := KeptOut.mk_next
  (State.progLoad_kept h)

theorem State.progUnload_kept {a1} (h : Kept p v s) : Kept p v (State.progUnload s a1) := by
  unfold State.progUnload
  with_reducible repeat'
    first
    | assumption | intro _
    | ((fail_if_no_progress extract_lets +onlyGivenNames z); try (refine Kept.have p v z ?_ ?_; on_goal 1 => unfold z; on_goal 2 => (try clear_value z)))
    | apply State.command_kept | apply State.reply_kept | (fail_if_no_progress refine Kept.upd ?_ rfl)

theorem execProgUnload_kept {a1} (h : Kept p v s) : KeptOut p v (execProgUnload a1 s) := KeptOut.mk_next
  (State.progUnload_kept h)

theorem State.workCfg_kept {a1} (h : Kept p v s) : Kept p v (State.workCfg s a1) := by
  unfold State.workCfg
  with_reducible repeat'
    first
    | assumption | intro _
    | ((fail_if_no_progress extract_lets +onlyGivenNames z); try (refine Kept.have p v z ?_ ?_; on_goal 1 => unfold z; on_goal 2 => (try clear_value z)))
    | apply State.command_kept | apply State.reply_kept | (fail_if_no_progress refine Kept.upd ?_ rfl)

theorem execWorkCfg_kept {a1} (h : Kept p v s) : KeptOut p v (execWorkCfg a1 s) := KeptOut.mk_next (State.workCfg_kept
  h)

/-! ### Setup -/

theorem State.budgetSet_kept {a1} (h : Kept p v s) : Kept p v (State.budgetSet s a1) := by
  unfold State.budgetSet
  with_reducible repeat'
    first
    | assumption | intro _
    | ((fail_if_no_progress extract_lets +onlyGivenNames z); try (refine Kept.have p v z ?_ ?_; on_goal 1 => unfold z; on_goal 2 => (try clear_value z)))
    | apply State.command_kept | apply State.reply_kept | apply State.each_kept | apply State.modGal_kept
    | refine Kept.ite ?_ ?_

theorem execBudgetSet_kept {a1} (h : Kept p v s) : KeptOut p v (execBudgetSet a1 s) := KeptOut.mk_next
  (State.budgetSet_kept h)

theorem State.atBoundary_kept {a1} (h : Kept p v s) : Kept p v (State.atBoundary s a1) := by
  unfold State.atBoundary
  with_reducible repeat'
    first
    | assumption
    | ((fail_if_no_progress extract_lets +onlyGivenNames z); try (refine Kept.have p v z ?_ ?_; on_goal 1 => unfold z; on_goal 2 => (try clear_value z)))
    | (fail_if_no_progress refine Kept.upd ?_ rfl)

theorem State.plantCfg_kept {a1} (h : Kept p v s) : Kept p v (State.plantCfg s a1) := by
  unfold State.plantCfg
  with_reducible repeat'
    first
    | assumption | intro _
    | ((fail_if_no_progress extract_lets +onlyGivenNames z); try (refine Kept.have p v z ?_ ?_; on_goal 1 => unfold z; on_goal 2 => (try clear_value z)))
    | apply State.command_kept | apply State.atBoundary_kept

theorem execPlantCfg_kept {a1} (h : Kept p v s) : KeptOut p v (execPlantCfg a1 s) := KeptOut.mk_next
  (State.plantCfg_kept h)

theorem State.holdupCfg_kept {a1} (h : Kept p v s) : Kept p v (State.holdupCfg s a1) := by
  unfold State.holdupCfg
  with_reducible repeat'
    first
    | assumption | intro _
    | ((fail_if_no_progress extract_lets +onlyGivenNames z); try (refine Kept.have p v z ?_ ?_; on_goal 1 => unfold z; on_goal 2 => (try clear_value z)))
    | apply State.command_kept | apply State.atBoundary_kept

theorem execHoldupCfg_kept {a1} (h : Kept p v s) : KeptOut p v (execHoldupCfg a1 s) := KeptOut.mk_next
  (State.holdupCfg_kept h)

theorem State.tickCfg_kept {a1} (h : Kept p v s) : Kept p v (State.tickCfg s a1) := by
  unfold State.tickCfg
  with_reducible repeat'
    first
    | assumption | intro _
    | ((fail_if_no_progress extract_lets +onlyGivenNames z); try (refine Kept.have p v z ?_ ?_; on_goal 1 => unfold z; on_goal 2 => (try clear_value z)))
    | apply State.command_kept | apply State.atBoundary_kept | (fail_if_no_progress refine Kept.upd ?_ rfl)

theorem execTickCfg_kept {a1} (h : Kept p v s) : KeptOut p v (execTickCfg a1 s) := KeptOut.mk_next (State.tickCfg_kept
  h)

theorem State.evtSub_kept {a1} (h : Kept p v s) : Kept p v (State.evtSub s a1) := by
  unfold State.evtSub
  with_reducible repeat'
    first
    | assumption | intro _
    | ((fail_if_no_progress extract_lets +onlyGivenNames z); try (refine Kept.have p v z ?_ ?_; on_goal 1 => unfold z; on_goal 2 => (try clear_value z)))
    | apply State.command_kept | apply State.reply_kept | apply State.chsubWrite_kept | refine Kept.ite ?_ ?_

theorem execEvtSub_kept {a1} (h : Kept p v s) : KeptOut p v (execEvtSub a1 s) := KeptOut.mk_next (State.evtSub_kept h)

theorem State.lutProg_kept {a1} (h : Kept p v s) : Kept p v (State.lutProg s a1) := by
  unfold State.lutProg
  with_reducible repeat'
    first
    | assumption | intro _
    | ((fail_if_no_progress extract_lets +onlyGivenNames z); try (refine Kept.have p v z ?_ ?_; on_goal 1 => unfold z; on_goal 2 => (try clear_value z)))
    | apply State.command_kept | apply State.reply_kept | apply State.lutctlWrite_kept | apply State.lutselWrite_kept
    | apply State.clearForced_kept | refine Kept.ite ?_ ?_

theorem execLutProg_kept {a1} (h : Kept p v s) : KeptOut p v (execLutProg a1 s) := KeptOut.mk_next (State.lutProg_kept
  h)

theorem State.timerWrites_kept {a1 a2 a3} (h : Kept p v s) : Kept p v (State.timerWrites s a1 a2 a3) := by
  unfold State.timerWrites
  with_reducible repeat'
    first
    | assumption | intro _
    | ((fail_if_no_progress extract_lets +onlyGivenNames z); try (refine Kept.have p v z ?_ ?_; on_goal 1 => unfold z; on_goal 2 => (try clear_value z)))
    | apply State.timerCount_kept | apply State.timerCmp_kept | apply State.modTimer_kept | apply State.timerCtl_kept
    | refine Kept.ite ?_ ?_

theorem State.timerCfg_kept {a1} (h : Kept p v s) : Kept p v (State.timerCfg s a1) := by
  unfold State.timerCfg
  with_reducible repeat'
    first
    | assumption | intro _
    | ((fail_if_no_progress extract_lets +onlyGivenNames z); try (refine Kept.have p v z ?_ ?_; on_goal 1 => unfold z; on_goal 2 => (try clear_value z)))
    | apply State.command_kept | apply State.timerWrites_kept | apply State.reply_kept

theorem execTimerCfg_kept {a1} (h : Kept p v s) : KeptOut p v (execTimerCfg a1 s) := KeptOut.mk_next
  (State.timerCfg_kept h)

theorem State.stagger_kept {a1} (h : Kept p v s) : Kept p v (State.stagger s a1) := by
  unfold State.stagger
  with_reducible repeat'
    first
    | assumption | intro _
    | ((fail_if_no_progress extract_lets +onlyGivenNames z); try (refine Kept.have p v z ?_ ?_; on_goal 1 => unfold z; on_goal 2 => (try clear_value z)))
    | apply State.command_kept | apply State.atBoundary_kept

theorem execStagger_kept {a1} (h : Kept p v s) : KeptOut p v (execStagger a1 s) := KeptOut.mk_next (State.stagger_kept
  h)

theorem State.traceCfg_kept {a1} (h : Kept p v s) : Kept p v (State.traceCfg s a1) := by
  unfold State.traceCfg
  with_reducible repeat'
    first
    | assumption | intro _
    | ((fail_if_no_progress extract_lets +onlyGivenNames z); try (refine Kept.have p v z ?_ ?_; on_goal 1 => unfold z; on_goal 2 => (try clear_value z)))
    | apply State.command_kept | apply State.reply_kept | (fail_if_no_progress refine Kept.upd ?_ rfl)

theorem execTraceCfg_kept {a1} (h : Kept p v s) : KeptOut p v (execTraceCfg a1 s) := KeptOut.mk_next
  (State.traceCfg_kept h)

/-! ### Recorder -/

theorem State.recordCommit_kept (h : Kept p v s) : Kept p v (State.recordCommit s) := by
  unfold State.recordCommit
  with_reducible repeat'
    first
    | assumption | intro _
    | ((fail_if_no_progress extract_lets +onlyGivenNames z); try (refine Kept.have p v z ?_ ?_; on_goal 1 => unfold z; on_goal 2 => (try clear_value z)))
    | (fail_if_no_progress refine Kept.upd ?_ rfl) | refine Kept.ite ?_ ?_ | split

theorem execRecordCommit_kept (h : Kept p v s) : KeptOut p v (execRecordCommit s) := KeptOut.mk_next
  (State.recordCommit_kept h)

theorem State.creditRise_kept (h : Kept p v s) : Kept p v (State.creditRise s) := by
  unfold State.creditRise
  with_reducible repeat'
    first
    | assumption | intro _
    | ((fail_if_no_progress extract_lets +onlyGivenNames z); try (refine Kept.have p v z ?_ ?_; on_goal 1 => unfold z; on_goal 2 => (try clear_value z)))
    | (fail_if_no_progress refine Kept.upd ?_ rfl) | refine Kept.ite ?_ ?_

theorem execCommitCreditRise_kept (h : Kept p v s) : KeptOut p v (execCommitCreditRise s) := KeptOut.mk_next
  (State.creditRise_kept h)

theorem State.readBox_kept {a1} (h : Kept p v s) : Kept p v (State.readBox s a1) := by
  unfold State.readBox
  with_reducible repeat'
    first
    | assumption
    | ((fail_if_no_progress extract_lets +onlyGivenNames z); try (refine Kept.have p v z ?_ ?_; on_goal 1 => unfold z; on_goal 2 => (try clear_value z)))
    | apply State.releaseOverlap_kept | apply State.store_kept | apply State.reply_kept

theorem State.bbRead_kept {a1 a2} (h : Kept p v s) : Kept p v (State.bbRead s a1 a2) := by
  unfold State.bbRead
  with_reducible repeat'
    first
    | assumption | intro _
    | ((fail_if_no_progress extract_lets +onlyGivenNames z); try (refine Kept.have p v z ?_ ?_; on_goal 1 => unfold z; on_goal 2 => (try clear_value z)))
    | apply State.command_kept | apply State.xferDo_kept | apply State.readBox_kept

theorem execBbRead_kept {a1 a2} (h : Kept p v s) : KeptOut p v (execBbRead a1 a2 s) := KeptOut.mk_next
  (State.bbRead_kept h)

theorem State.bbMark_kept {a1} (h : Kept p v s) : Kept p v (State.bbMark s a1) := by
  unfold State.bbMark
  with_reducible repeat'
    first
    | assumption | intro _
    | ((fail_if_no_progress extract_lets +onlyGivenNames z); try (refine Kept.have p v z ?_ ?_; on_goal 1 => unfold z; on_goal 2 => (try clear_value z)))
    | apply State.command_kept | apply State.record_kept | apply State.reply_kept
    | (fail_if_no_progress refine Kept.upd ?_ rfl) | refine Kept.ite ?_ ?_

theorem execBbMark_kept {a1} (h : Kept p v s) : KeptOut p v (execBbMark a1 s) := KeptOut.mk_next (State.bbMark_kept h)

theorem State.packetOut_kept (h : Kept p v s) : Kept p v (State.packetOut s) := by
  unfold State.packetOut
  with_reducible repeat'
    first
    | assumption
    | ((fail_if_no_progress extract_lets +onlyGivenNames z); try (refine Kept.have p v z ?_ ?_; on_goal 1 => unfold z; on_goal 2 => (try clear_value z)))
    | (fail_if_no_progress refine Kept.upd ?_ rfl) | split

theorem execTracePacket_kept (h : Kept p v s) : KeptOut p v (execTracePacket s) := KeptOut.mk_next
  (State.packetOut_kept h)

/-! ### Lantern -/

theorem State.attachCmd_kept {a1 a2 a3 f4} (h : Kept p v s) (hf4 : ∀ y0, Kept p v y0 → Kept p v (f4 y0)) : Kept p v (State.attachCmd s a1 a2 a3 f4) := by
  unfold State.attachCmd
  with_reducible repeat'
    first
    | assumption | intro _
    | ((fail_if_no_progress extract_lets +onlyGivenNames z); try (refine Kept.have p v z ?_ ?_; on_goal 1 => unfold z; on_goal 2 => (try clear_value z)))
    | apply State.command_kept | refine Kept.ite ?_ ?_

theorem State.challenge_kept {a1} (h : Kept p v s) : Kept p v (State.challenge s a1) := by
  unfold State.challenge
  with_reducible repeat'
    first
    | assumption
    | ((fail_if_no_progress extract_lets +onlyGivenNames z); try (refine Kept.have p v z ?_ ?_; on_goal 1 => unfold z; on_goal 2 => (try clear_value z)))
    | apply State.reply_kept | (fail_if_no_progress refine Kept.upd ?_ rfl)

theorem execDbgAttachChallenge_kept {a1} (h : Kept p v s) : KeptOut p v (execDbgAttachChallenge a1 s) := by
  unfold execDbgAttachChallenge
  with_reducible repeat'
    first
    | assumption | intro _ | apply KeptOut.mk_next | apply State.attachCmd_kept | apply State.challenge_kept

theorem State.attachResponse_kept {a1 a2} (h : Kept p v s) : Kept p v (State.attachResponse s a1 a2) := by
  unfold State.attachResponse
  with_reducible repeat'
    first
    | assumption
    | ((fail_if_no_progress extract_lets +onlyGivenNames z); try (refine Kept.have p v z ?_ ?_; on_goal 1 => unfold z; on_goal 2 => (try clear_value z)))
    | apply State.authenticate_kept | apply State.reply_kept | apply State.record_kept
    | (fail_if_no_progress refine Kept.upd ?_ rfl) | refine KeptSnd.of_pair ?_ (by assumption) | split

theorem execDbgAttachResponse_kept {a1 a2} (h : Kept p v s) : KeptOut p v (execDbgAttachResponse a1 a2 s) := by
  unfold execDbgAttachResponse
  with_reducible repeat'
    first
    | assumption | intro _ | apply KeptOut.mk_next | apply State.attachCmd_kept | apply State.attachResponse_kept

theorem State.detach_kept {a1} (h : Kept p v s) : Kept p v (State.detach s a1) := by
  unfold State.detach
  with_reducible repeat'
    first
    | assumption | intro _
    | ((fail_if_no_progress extract_lets +onlyGivenNames z); try (refine Kept.have p v z ?_ ?_; on_goal 1 => unfold z; on_goal 2 => (try clear_value z)))
    | apply State.each_kept | apply State.resumeSeq_kept | apply State.modSeq_kept | apply State.reply_kept
    | (fail_if_no_progress refine Kept.upd ?_ rfl)

theorem execDbgDetach_kept {a1} (h : Kept p v s) : KeptOut p v (execDbgDetach a1 s) := by
  unfold execDbgDetach
  with_reducible repeat'
    first
    | assumption | intro _ | apply KeptOut.mk_next | apply State.command_kept | apply State.detach_kept

theorem State.lantern_kept {a1 a2 a3 f4} (h : Kept p v s) (hf4 : ∀ y0, Kept p v y0 → Kept p v (f4 y0)) : Kept p v (State.lantern s a1 a2 a3 f4) := by
  unfold State.lantern
  with_reducible repeat' first | assumption | apply State.command_kept

theorem State.dbgHalt_kept {a1} (h : Kept p v s) : Kept p v (State.dbgHalt s a1) := by
  unfold State.dbgHalt
  with_reducible repeat'
    first
    | assumption | intro _
    | ((fail_if_no_progress extract_lets +onlyGivenNames z); try (refine Kept.have p v z ?_ ?_; on_goal 1 => unfold z; on_goal 2 => (try clear_value z)))
    | apply State.lantern_kept | apply State.each_kept | apply State.haltRequest_kept | apply State.reply_kept

theorem execDbgHalt_kept {a1} (h : Kept p v s) : KeptOut p v (execDbgHalt a1 s) := KeptOut.mk_next (State.dbgHalt_kept
  h)

theorem State.dbgResume_kept {a1} (h : Kept p v s) : Kept p v (State.dbgResume s a1) := by
  unfold State.dbgResume
  with_reducible repeat'
    first
    | assumption | intro _ | apply State.lantern_kept | apply State.reply_kept | apply State.each_kept
    | apply State.resumeSeq_kept

theorem execDbgResume_kept {a1} (h : Kept p v s) : KeptOut p v (execDbgResume a1 s) := KeptOut.mk_next
  (State.dbgResume_kept h)

theorem State.startStep_kept {a1 a2 a3 a4} (h : Kept p v s) : Kept p v (State.startStep s a1 a2 a3 a4) := by
  unfold State.startStep
  with_reducible repeat'
    first
    | assumption
    | ((fail_if_no_progress extract_lets +onlyGivenNames z); try (refine Kept.have p v z ?_ ?_; on_goal 1 => unfold z; on_goal 2 => (try clear_value z)))
    | apply State.modSeq_kept | (fail_if_no_progress refine Kept.upd ?_ rfl)

theorem State.dbgStep_kept {a1 a2} (h : Kept p v s) : Kept p v (State.dbgStep s a1 a2) := by
  unfold State.dbgStep
  with_reducible repeat'
    first
    | assumption | intro _
    | ((fail_if_no_progress extract_lets +onlyGivenNames z); try (refine Kept.have p v z ?_ ?_; on_goal 1 => unfold z; on_goal 2 => (try clear_value z)))
    | apply State.lantern_kept | apply State.startStep_kept | refine Kept.ite ?_ ?_

theorem execDbgStepInstruction_kept {a1} (h : Kept p v s) : KeptOut p v (execDbgStepInstruction a1 s) :=
  KeptOut.mk_next (State.dbgStep_kept h)

theorem execDbgStepMicroword_kept {a1} (h : Kept p v s) : KeptOut p v (execDbgStepMicroword a1 s) := KeptOut.mk_next
  (State.dbgStep_kept h)

theorem State.stepTimeout_kept {a1} (h : Kept p v s) : Kept p v (State.stepTimeout s a1) := by
  unfold State.stepTimeout
  with_reducible repeat'
    first
    | assumption
    | ((fail_if_no_progress extract_lets +onlyGivenNames z); try (refine Kept.have p v z ?_ ?_; on_goal 1 => unfold z; on_goal 2 => (try clear_value z)))
    | apply State.reply_kept | apply State.modSeq_kept | (fail_if_no_progress refine Kept.upd ?_ rfl) | split

theorem execStepTimeout_kept {a1} (h : Kept p v s) : KeptOut p v (execStepTimeout a1 s) := KeptOut.mk_next
  (State.stepTimeout_kept h)

theorem State.dbgBreak_kept {a1 a2} (h : Kept p v s) : Kept p v (State.dbgBreak s a1 a2) := by
  unfold State.dbgBreak
  with_reducible repeat'
    first
    | assumption | intro _
    | ((fail_if_no_progress extract_lets +onlyGivenNames z); try (refine Kept.have p v z ?_ ?_; on_goal 1 => unfold z; on_goal 2 => (try clear_value z)))
    | apply State.lantern_kept | apply State.reply_kept | (fail_if_no_progress refine Kept.upd ?_ rfl)
    | refine Kept.ite ?_ ?_

theorem execDbgBreakSet_kept {a1} (h : Kept p v s) : KeptOut p v (execDbgBreakSet a1 s) := KeptOut.mk_next
  (State.dbgBreak_kept h)

theorem execDbgBreakClear_kept {a1} (h : Kept p v s) : KeptOut p v (execDbgBreakClear a1 s) := KeptOut.mk_next
  (State.dbgBreak_kept h)

theorem State.dbgPeek_kept {a1} (h : Kept p v s) : Kept p v (State.dbgPeek s a1) := by
  unfold State.dbgPeek
  with_reducible repeat'
    first
    | assumption | intro _
    | ((fail_if_no_progress extract_lets +onlyGivenNames z); try (refine Kept.have p v z ?_ ?_; on_goal 1 => unfold z; on_goal 2 => (try clear_value z)))
    | apply State.lantern_kept | apply State.reply_kept

theorem execDbgPeek_kept {a1} (h : Kept p v s) : KeptOut p v (execDbgPeek a1 s) := KeptOut.mk_next (State.dbgPeek_kept
  h)

theorem State.pokeReg_kept {a1 a2 a3 a4} (h : Kept p v s) : Kept p v (State.pokeReg s a1 a2 a3 a4) := by
  unfold State.pokeReg
  with_reducible repeat'
    first
    | assumption | intro _
    | ((fail_if_no_progress extract_lets +onlyGivenNames z); try (refine Kept.have p v z ?_ ?_; on_goal 1 => unfold z; on_goal 2 => (try clear_value z)))
    | apply State.regWrite_kept | apply State.reply_kept | refine Kept.ite ?_ ?_ | split

theorem State.dbgPoke_kept {a1} (h : Kept p v s) : Kept p v (State.dbgPoke s a1) := by
  unfold State.dbgPoke
  with_reducible repeat'
    first
    | assumption | intro _
    | ((fail_if_no_progress extract_lets +onlyGivenNames z); try (refine Kept.have p v z ?_ ?_; on_goal 1 => unfold z; on_goal 2 => (try clear_value z)))
    | apply State.lantern_kept | apply State.pokeReg_kept

theorem execDbgPoke_kept {a1} (h : Kept p v s) : KeptOut p v (execDbgPoke a1 s) := KeptOut.mk_next (State.dbgPoke_kept
  h)

theorem State.spaceTouch_kept {a1 a2} (h : Kept p v s) : Kept p v (State.spaceTouch s a1 a2) := by
  unfold State.spaceTouch
  with_reducible repeat'
    first
    | assumption | intro _ | apply State.eccRead_kept | apply State.wakeBanks_kept | apply State.each_kept
    | apply State.ctxTouch_kept | split

theorem State.dbgReadmem_kept {a1 a2} (h : Kept p v s) : Kept p v (State.dbgReadmem s a1 a2) := by
  unfold State.dbgReadmem
  with_reducible repeat'
    first
    | assumption | intro _
    | ((fail_if_no_progress extract_lets +onlyGivenNames z); try (refine Kept.have p v z ?_ ?_; on_goal 1 => unfold z; on_goal 2 => (try clear_value z)))
    | apply State.lantern_kept | apply State.reply_kept | apply State.spaceTouch_kept | apply State.xferDo_kept
    | split

theorem execDbgReadmem_kept {a1 a2} (h : Kept p v s) : KeptOut p v (execDbgReadmem a1 a2 s) := KeptOut.mk_next
  (State.dbgReadmem_kept h)

theorem State.spaceWrite_kept {a1} (h : Kept p v s) : Kept p v (State.spaceWrite s a1) := by
  unfold State.spaceWrite
  with_reducible repeat'
    first
    | assumption | intro _
    | ((fail_if_no_progress extract_lets +onlyGivenNames z); try (refine Kept.have p v z ?_ ?_; on_goal 1 => unfold z; on_goal 2 => (try clear_value z)))
    | apply State.modSeq_kept | apply State.each_kept | apply State.releaseOverlap_kept | apply State.store_kept
    | split

theorem State.dbgWritemem_kept {a1 a2} (h : Kept p v s) : Kept p v (State.dbgWritemem s a1 a2) := by
  unfold State.dbgWritemem
  with_reducible repeat'
    first
    | assumption | intro _
    | ((fail_if_no_progress extract_lets +onlyGivenNames z); try (refine Kept.have p v z ?_ ?_; on_goal 1 => unfold z; on_goal 2 => (try clear_value z)))
    | apply State.lantern_kept | apply State.reply_kept | apply State.spaceWrite_kept | apply State.xferDo_kept
    | refine Kept.ite ?_ ?_

theorem execDbgWritemem_kept {a1 a2} (h : Kept p v s) : KeptOut p v (execDbgWritemem a1 a2 s) := KeptOut.mk_next
  (State.dbgWritemem_kept h)

theorem State.dbgXtrig_kept {a1} (h : Kept p v s) : Kept p v (State.dbgXtrig s a1) := by
  unfold State.dbgXtrig
  with_reducible repeat'
    first
    | assumption | intro _
    | ((fail_if_no_progress extract_lets +onlyGivenNames z); try (refine Kept.have p v z ?_ ?_; on_goal 1 => unfold z; on_goal 2 => (try clear_value z)))
    | apply State.lantern_kept | apply State.globWrite_kept | apply State.reply_kept

theorem execDbgXtrig_kept {a1} (h : Kept p v s) : KeptOut p v (execDbgXtrig a1 s) := KeptOut.mk_next
  (State.dbgXtrig_kept h)

theorem State.dbgRegs_kept {a1 a2 a3 f4} (h : Kept p v s) (hf4 : ∀ y0 y1, Kept p v y1 → Kept p v (f4 y0 y1)) : Kept p v (State.dbgRegs s a1 a2 a3 f4) := by
  unfold State.dbgRegs
  with_reducible repeat'
    first
    | assumption | intro _
    | ((fail_if_no_progress extract_lets +onlyGivenNames z); try (refine Kept.have p v z ?_ ?_; on_goal 1 => unfold z; on_goal 2 => (try clear_value z)))
    | apply State.lantern_kept | refine hf4 _ _ ?_ | refine Kept.ite ?_ ?_

theorem execDbgRegsRead_kept {a1} (h : Kept p v s) : KeptOut p v (execDbgRegsRead a1 s) := by
  unfold execDbgRegsRead
  with_reducible repeat'
    first
    | assumption | intro _ | apply KeptOut.mk_next | apply State.dbgRegs_kept | apply State.reply_kept

theorem State.dbgRegsWrite_kept {a1} (h : Kept p v s) : Kept p v (State.dbgRegsWrite s a1) := by
  unfold State.dbgRegsWrite
  with_reducible repeat'
    first
    | assumption | intro _
    | ((fail_if_no_progress extract_lets +onlyGivenNames z); try (refine Kept.have p v z ?_ ?_; on_goal 1 => unfold z; on_goal 2 => (try clear_value z)))
    | apply State.dbgRegs_kept | apply State.reply_kept | apply State.modSeq_kept

theorem execDbgRegsWrite_kept {a1} (h : Kept p v s) : KeptOut p v (execDbgRegsWrite a1 s) := KeptOut.mk_next
  (State.dbgRegsWrite_kept h)

/-! ### Startup -/

theorem State.cold_kept (h : Kept p v s) : Kept p v s.cold :=
  ⟨Memory.wf_filter h.1 _, rfl, h.2.2⟩

theorem State.powerOnReset_kept {a1} (h : Kept p v s) : Kept p v (State.powerOnReset s a1) := by
  unfold State.powerOnReset
  with_reducible repeat'
    first
    | assumption
    | ((fail_if_no_progress extract_lets +onlyGivenNames z); try (refine Kept.have p v z ?_ ?_; on_goal 1 => unfold z; on_goal 2 => (try clear_value z)))
    | apply State.cold_kept | apply State.raiseNext_kept | (fail_if_no_progress refine Kept.upd ?_ rfl)

theorem execPowerOnReset_kept {a1} (h : Kept p v s) : KeptOut p v (execPowerOnReset a1 s) := KeptOut.mk_next
  (State.powerOnReset_kept h)

theorem State.calibComplete_kept {a1 a2} (h : Kept p v s) : Kept p v (State.calibComplete s a1 a2) := by
  unfold State.calibComplete
  with_reducible repeat'
    first
    | assumption | intro _
    | ((fail_if_no_progress extract_lets +onlyGivenNames z); try (refine Kept.have p v z ?_ ?_; on_goal 1 => unfold z; on_goal 2 => (try clear_value z)))
    | apply State.each_kept | apply State.modGal_kept | apply State.setEng_kept
    | (fail_if_no_progress refine Kept.upd ?_ rfl) | refine Kept.ite ?_ ?_

theorem execCalibComplete_kept {a1 a2} (h : Kept p v s) : KeptOut p v (execCalibComplete a1 a2 s) := KeptOut.mk_next
  (State.calibComplete_kept h)

theorem State.bistShared_kept {a1} (h : Kept p v s) : Kept p v (State.bistShared s a1) := by
  unfold State.bistShared
  with_reducible repeat'
    first
    | assumption
    | ((fail_if_no_progress extract_lets +onlyGivenNames z); try (refine Kept.have p v z ?_ ?_; on_goal 1 => unfold z; on_goal 2 => (try clear_value z)))
    | apply State.bistRecord_kept | (fail_if_no_progress refine Kept.upd ?_ rfl)

theorem State.bistFail_kept {a1} (h : Kept p v s) : Kept p v (State.bistFail s a1) := by
  unfold State.bistFail
  with_reducible repeat'
    first
    | assumption | intro _ | apply State.bistGallery_kept | apply State.bistShared_kept | refine Kept.ite ?_ ?_
    | split

theorem State.initComplete_kept {a1} (h : Kept p v s) : Kept p v (State.initComplete s a1) := by
  unfold State.initComplete
  with_reducible repeat'
    first
    | assumption | intro _
    | ((fail_if_no_progress extract_lets +onlyGivenNames z); try (refine Kept.have p v z ?_ ?_; on_goal 1 => unfold z; on_goal 2 => (try clear_value z)))
    | apply State.setEng_kept | apply State.each_kept | apply State.bistFail_kept
    | (fail_if_no_progress refine Kept.upd ?_ rfl) | refine Kept.ite ?_ ?_

theorem execInitComplete_kept {a1} (h : Kept p v s) : KeptOut p v (execInitComplete a1 s) := KeptOut.mk_next
  (State.initComplete_kept h)

theorem State.loadGal_kept {a1 a2} (h : Kept p v s) : Kept p v (State.loadGal s a1 a2) := by
  unfold State.loadGal
  with_reducible repeat'
    first
    | assumption | intro _
    | ((fail_if_no_progress extract_lets +onlyGivenNames z); try (refine Kept.have p v z ?_ ?_; on_goal 1 => unfold z; on_goal 2 => (try clear_value z)))
    | apply State.writeRuntime_kept | apply State.commitGal_kept | apply State.setGState_kept | refine Kept.ite ?_ ?_

theorem State.loadComplete_kept {a1 a2 a3} (h : Kept p v s) : Kept p v (State.loadComplete s a1 a2 a3) := by
  unfold State.loadComplete
  with_reducible repeat'
    first
    | assumption | intro _
    | ((fail_if_no_progress extract_lets +onlyGivenNames z); try (refine Kept.have p v z ?_ ?_; on_goal 1 => unfold z; on_goal 2 => (try clear_value z)))
    | apply State.each_kept | apply State.loadGal_kept | apply State.setEng_kept | apply State.boundaryAt_kept
    | (fail_if_no_progress refine Kept.upd ?_ rfl) | refine Kept.ite ?_ ?_

theorem execLoadComplete_kept {a1} (h : Kept p v s) : KeptOut p v (execLoadComplete a1 s) :=
  KeptOut.mk_next (State.loadComplete_kept h)

theorem State.engReset_kept (h : Kept p v s) : Kept p v (State.engReset s) := by
  unfold State.engReset
  with_reducible repeat'
    first
    | assumption | intro _
    | ((fail_if_no_progress extract_lets +onlyGivenNames z); try (refine Kept.have p v z ?_ ?_; on_goal 1 => unfold z; on_goal 2 => (try clear_value z)))
    | apply State.cold_kept | apply State.each_kept | apply State.modSeq_kept | apply State.raiseNext_kept
    | (fail_if_no_progress refine Kept.upd ?_ rfl)

theorem execEngineReset_kept {a1} (h : Kept p v s) : KeptOut p v (execEngineReset a1 s) := by
  unfold execEngineReset
  with_reducible repeat'
    first
    | assumption | apply KeptOut.mk_next | exact KeptOut.mk_fault | apply State.engReset_kept | split

theorem State.dbgReset_kept (h : Kept p v s) : Kept p v (State.dbgReset s) := by
  unfold State.dbgReset
  with_reducible repeat'
    first
    | assumption | intro _
    | ((fail_if_no_progress extract_lets +onlyGivenNames z); try (refine Kept.have p v z ?_ ?_; on_goal 1 => unfold z; on_goal 2 => (try clear_value z)))
    | apply State.rstBit_kept | apply State.each_kept | apply State.modGal_kept | apply State.modSeq_kept
    | apply State.idleBind_kept | (fail_if_no_progress refine Kept.upd ?_ rfl)

theorem execDebugReset_kept {a1} (h : Kept p v s) : KeptOut p v (execDebugReset a1 s) := by
  unfold execDebugReset
  with_reducible repeat'
    first
    | assumption | apply KeptOut.mk_next | exact KeptOut.mk_fault | apply State.dbgReset_kept | split

theorem State.squeezeReturned_kept {a1} (h : Kept p v s) : Kept p v (State.squeezeReturned s a1) := State.modGal_kept
  h

theorem State.stopSeq_kept {a1} (h : Kept p v s) : Kept p v (State.stopSeq s a1) := by
  unfold State.stopSeq
  with_reducible repeat'
    first
    | assumption | intro _
    | ((fail_if_no_progress extract_lets +onlyGivenNames z); try (refine Kept.have p v z ?_ ?_; on_goal 1 => unfold z; on_goal 2 => (try clear_value z)))
    | apply State.squeezeReturned_kept | apply State.breakLock_kept | apply State.abandon_kept
    | apply State.dropRunning_kept | apply State.dropPrefetch_kept | apply State.irq_kept | apply State.modSeq_kept
    | refine Kept.ite ?_ ?_

theorem State.retractUnreserved_kept {a1} (h : Kept p v s) : Kept p v (State.retractUnreserved s a1) := by
  unfold State.retractUnreserved
  with_reducible repeat'
    first
    | assumption
    | ((fail_if_no_progress extract_lets +onlyGivenNames z); try (refine Kept.have p v z ?_ ?_; on_goal 1 => unfold z; on_goal 2 => (try clear_value z)))
    | apply State.releaseLines_kept | apply State.retractLines_kept | apply State.retract_kept
    | (fail_if_no_progress refine Kept.upd ?_ rfl)

theorem State.commitAbandon_kept (h : Kept p v s) : Kept p v (State.commitAbandon s) := by
  unfold State.commitAbandon
  with_reducible repeat' first | assumption | intro _ | apply State.each_kept | apply State.commitPartial_kept | split

theorem State.plwAssert_kept (h : Kept p v s) : Kept p v (State.plwAssert s) := by
  unfold State.plwAssert
  with_reducible repeat'
    first
    | assumption | intro _
    | ((fail_if_no_progress extract_lets +onlyGivenNames z); try (refine Kept.have p v z ?_ ?_; on_goal 1 => unfold z; on_goal 2 => (try clear_value z)))
    | apply State.hirq_kept | apply State.each_kept | apply State.stopSeq_kept | apply State.commitAbandon_kept
    | apply State.retractUnreserved_kept | (fail_if_no_progress refine Kept.upd ?_ rfl) | refine Kept.ite ?_ ?_

theorem execPlwAssert_kept (h : Kept p v s) : KeptOut p v (execPlwAssert s) := KeptOut.mk_next (State.plwAssert_kept
  h)

theorem State.wrwaitExpiry_kept (h : Kept p v s) : Kept p v (State.wrwaitExpiry s) := by
  unfold State.wrwaitExpiry
  with_reducible repeat'
    first
    | assumption | intro _
    | ((fail_if_no_progress extract_lets +onlyGivenNames z); try (refine Kept.have p v z ?_ ?_; on_goal 1 => unfold z; on_goal 2 => (try clear_value z)))
    | apply State.retract_kept | apply State.each_kept | (fail_if_no_progress refine Kept.upd ?_ rfl)
    | refine Kept.ite ?_ ?_

theorem execWrwaitExpiry_kept (h : Kept p v s) : KeptOut p v (execWrwaitExpiry s) := KeptOut.mk_next
  (State.wrwaitExpiry_kept h)

theorem State.lightRecord_kept {a1} (h : Kept p v s) : Kept p v (State.lightRecord s a1) := by
  unfold State.lightRecord
  with_reducible repeat'
    first
    | assumption
    | ((fail_if_no_progress extract_lets +onlyGivenNames z); try (refine Kept.have p v z ?_ ?_; on_goal 1 => unfold z; on_goal 2 => (try clear_value z)))
    | apply State.record_kept | (fail_if_no_progress refine Kept.upd ?_ rfl) | split

theorem State.lightsOut_kept {a1} (h : Kept p v s) : Kept p v (State.lightsOut s a1) := by
  unfold State.lightsOut
  with_reducible repeat'
    first
    | assumption | intro _
    | ((fail_if_no_progress extract_lets +onlyGivenNames z); try (refine Kept.have p v z ?_ ?_; on_goal 1 => unfold z; on_goal 2 => (try clear_value z)))
    | apply State.logicOff_kept | apply State.setPd_kept | refine Kept.ite ?_ ?_

theorem State.lastLightDone_kept {a1} (h : Kept p v s) : Kept p v (State.lastLightDone s a1) := by
  unfold State.lastLightDone
  with_reducible repeat'
    first
    | assumption | intro _
    | ((fail_if_no_progress extract_lets +onlyGivenNames z); try (refine Kept.have p v z ?_ ?_; on_goal 1 => unfold z; on_goal 2 => (try clear_value z)))
    | apply State.lightRecord_kept | apply State.each_kept | apply State.lightsOut_kept
    | (fail_if_no_progress refine Kept.upd ?_ rfl) | refine Kept.ite ?_ ?_

theorem execLastLightDone_kept {a1} (h : Kept p v s) : KeptOut p v (execLastLightDone a1 s) := KeptOut.mk_next
  (State.lastLightDone_kept h)

theorem State.restoreGal_kept {a1 a2} (h : Kept p v s) : Kept p v (State.restoreGal s a1 a2) := by
  unfold State.restoreGal
  with_reducible repeat'
    first
    | assumption
    | ((fail_if_no_progress extract_lets +onlyGivenNames z); try (refine Kept.have p v z ?_ ?_; on_goal 1 => unfold z; on_goal 2 => (try clear_value z)))
    | apply State.authParts_kept | apply State.releaseGal_kept | apply State.commitGal_kept
    | apply State.setGState_kept | refine KeptSnd.of_pair ?_ (by assumption) | split

theorem State.restoreAll_kept {l tags} (h : Kept p v s) : Kept p v (s.restoreAll l tags) := by
  induction l generalizing s tags with
  | nil => exact h
  | cons g gs ih => exact ih (State.restoreGal_kept h)

theorem State.endDeadline_kept {a1} (h : Kept p v s) : Kept p v (State.endDeadline s a1) := by
  unfold State.endDeadline
  with_reducible repeat'
    first
    | assumption | intro _ | apply State.squeezeCheck_kept | apply State.modGal_kept | refine Kept.ite ?_ ?_

theorem State.returnAdvance_kept (h : Kept p v s) : Kept p v (State.returnAdvance s) := by
  unfold State.returnAdvance
  with_reducible repeat'
    first
    | assumption | intro _
    | ((fail_if_no_progress extract_lets +onlyGivenNames z); try (refine Kept.have p v z ?_ ?_; on_goal 1 => unfold z; on_goal 2 => (try clear_value z)))
    | apply State.recovery_kept | apply State.restoreAll_kept | apply State.each_kept | apply State.endDeadline_kept
    | (fail_if_no_progress refine Kept.upd ?_ rfl) | refine Kept.ite ?_ ?_ | split

theorem State.powerReturn_kept {a1} (h : Kept p v s) : Kept p v (State.powerReturn s a1) := by
  unfold State.powerReturn
  with_reducible repeat'
    first
    | assumption | intro _
    | ((fail_if_no_progress extract_lets +onlyGivenNames z); try (refine Kept.have p v z ?_ ?_; on_goal 1 => unfold z; on_goal 2 => (try clear_value z)))
    | apply State.returnAdvance_kept | apply State.each_kept | apply State.setPd_kept
    | (fail_if_no_progress refine Kept.upd ?_ rfl) | refine Kept.ite ?_ ?_

theorem execPowerReturn_kept {a1} (h : Kept p v s) : KeptOut p v (execPowerReturn a1 s) := KeptOut.mk_next
  (State.powerReturn_kept h)

theorem execPdAck_kept {a1 a2} (h : Kept p v s) : KeptOut p v (execPdAck a1 a2 s) := KeptOut.mk_next
  (State.returnAdvance_kept (State.pdAck_kept h))

theorem execPdAckTimeout_kept {a1} (h : Kept p v s) : KeptOut p v (execPdAckTimeout a1 s) := KeptOut.mk_next
  (State.returnAdvance_kept (State.pdTimeout_kept h))

theorem execMpWarmResetReturn_kept (h : Kept p v s) : KeptOut p v (execMpWarmResetReturn s) := KeptOut.mk_next
  (State.returnAdvance_kept (State.mpReturn_kept h))

end Sys2Proof.Machine
end

