-- ==== Sys2Proof/Laws/KeptExec.lean ====
section
/-!
SUPPORT. Every command keeps both memories in their canonical form, the queue behind it and the configuration.
-/

namespace Sys2Proof.Machine

open Sys2Proof

theorem exec_kept {p : List Instr} {v : Variant} {s : State} (i : Instr) (h : Kept p v s) : KeptOut p v (exec i s) := by
  cases i with
  | microwordIssue => exact execMicrowordIssue_kept h
  | scratchReadReturn => exact execScratchReadReturn_kept h
  | productLanding => exact execProductLanding_kept h
  | poolLanding => exact execPoolLanding_kept h
  | pair => exact execPair_kept h
  | ldb => exact execLdb_kept h
  | stb => exact execStb_kept h
  | ldh => exact execLdh_kept h
  | sth => exact execSth_kept h
  | ldw => exact execLdw_kept h
  | stw => exact execStw_kept h
  | lda => exact execLda_kept h
  | sta => exact execSta_kept h
  | movl => exact execMovl_kept h
  | movx => exact execMovx_kept h
  | sld => exact execSld_kept h
  | sst => exact execSst_kept h
  | lea => exact execLea_kept h
  | push => exact execPush_kept h
  | pop => exact execPop_kept h
  | addW => exact execAddW_kept h
  | adcW => exact execAdcW_kept h
  | subW => exact execSubW_kept h
  | sbcW => exact execSbcW_kept h
  | cmpW => exact execCmpW_kept h
  | andW => exact execAndW_kept h
  | orW => exact execOrW_kept h
  | xorW => exact execXorW_kept h
  | andnW => exact execAndnW_kept h
  | notW => exact execNotW_kept h
  | negW => exact execNegW_kept h
  | shlW => exact execShlW_kept h
  | shrW => exact execShrW_kept h
  | asrW => exact execAsrW_kept h
  | rolW => exact execRolW_kept h
  | rorW => exact execRorW_kept h
  | shlH => exact execShlH_kept h
  | shrH => exact execShrH_kept h
  | asrH => exact execAsrH_kept h
  | rolH => exact execRolH_kept h
  | rorH => exact execRorH_kept h
  | addH => exact execAddH_kept h
  | adcH => exact execAdcH_kept h
  | subH => exact execSubH_kept h
  | sbcH => exact execSbcH_kept h
  | cmpH => exact execCmpH_kept h
  | andH => exact execAndH_kept h
  | orH => exact execOrH_kept h
  | xorH => exact execXorH_kept h
  | notH => exact execNotH_kept h
  | negH => exact execNegH_kept h
  | brevW => exact execBrevW_kept h
  | brevH => exact execBrevH_kept h
  | parW => exact execParW_kept h
  | parH => exact execParH_kept h
  | swapbH => exact execSwapbH_kept h
  | sextH => exact execSextH_kept h
  | zextH => exact execZextH_kept h
  | sextW => exact execSextW_kept h
  | zextW => exact execZextW_kept h
  | clzW => exact execClzW_kept h
  | crci => exact execCrci_kept h
  | crcbW => exact execCrcbW_kept h
  | crch => exact execCrch_kept h
  | crcw => exact execCrcw_kept h
  | crcf => exact execCrcf_kept h
  | addiH => exact execAddiH_kept h
  | addiW => exact execAddiW_kept h
  | cmpiH => exact execCmpiH_kept h
  | cmpiW => exact execCmpiW_kept h
  | jmp => exact execJmp_kept h
  | jcc => exact execJcc_kept h
  | call => exact execCall_kept h
  | ret => exact execRet_kept h
  | loop => exact execLoop_kept h
  | gate => exact execGate_kept h
  | rets => exact execRets_kept h
  | trap => exact execTrap_kept h
  | jmpa => exact execJmpa_kept h
  | calla => exact execCalla_kept h
  | mul => exact execMul_kept h
  | mula => exact execMula_kept h
  | div => exact execDiv_kept h
  | rem => exact execRem_kept h
  | fadd => exact execFadd_kept h
  | fsub => exact execFsub_kept h
  | fmul => exact execFmul_kept h
  | fdiv => exact execFdiv_kept h
  | fsqrt => exact execFsqrt_kept h
  | fma => exact execFma_kept h
  | fcmp q n d x y => exact execFcmp_kept (a3 := d) h
  | fcvt => exact execFcvt_kept h
  | fminmax => exact execFminmax_kept h
  | fclass q n d x y => exact execFclass_kept (a5 := y) h
  | fbar => exact execFbar_kept h
  | fetch => exact execFetch_kept h
  | put => exact execPut_kept h
  | waitt => exact execWaitt_kept h
  | copy => exact execCopy_kept h
  | scan => exact execScan_kept h
  | crcs => exact execCrcs_kept h
  | matchS => exact execMatchS_kept h
  | matchF => exact execMatchF_kept h
  | hashs => exact execHashs_kept h
  | filt => exact execFilt_kept h
  | dgstP => exact execDgstP_kept h
  | dgstOpen => exact execDgstOpen_kept h
  | dgstFinal => exact execDgstFinal_kept h
  | dgstCheck => exact execDgstCheck_kept h
  | dgstSave => exact execDgstSave_kept h
  | dgstLoad => exact execDgstLoad_kept h
  | dgstAbort => exact execDgstAbort_kept h
  | fills => exact execFills_kept h
  | cmps => exact execCmps_kept h
  | streamStep => exact execStreamStep_kept h
  | transferRetire => exact execTransferRetire_kept h
  | runAheadStart => exact execRunAheadStart_kept h
  | shadowInstruction => exact execShadowInstruction_kept h
  | lineAgeExpiry => exact execLineAgeExpiry_kept h
  | hold => exact execHold_kept h
  | free => exact execFree_kept h
  | yield => exact execYield_kept h
  | wdog => exact execWdog_kept h
  | stim => exact execStim_kept h
  | evtPub => exact execEvtPub_kept h
  | evtTake => exact execEvtTake_kept h
  | evtCnt => exact execEvtCnt_kept h
  | waite => exact execWaite_kept h
  | waiteT => exact execWaiteT_kept h
  | waitEnd => exact execWaitEnd_kept h
  | brk => exact execBrk_kept h
  | halt => exact execHalt_kept h
  | haltWake => exact execHaltWake_kept h
  | setml => exact execSetml_kept h
  | exceptionEntry => exact execExceptionEntry_kept h
  | fptrapEntry => exact execFptrapEntry_kept h
  | unbindRequest => exact execUnbindRequest_kept h
  | debugHalt => exact execDebugHalt_kept h
  | deferredHaltForced => exact execDeferredHaltForced_kept h
  | tickYield => exact execTickYield_kept h
  | interruptEntry => exact execInterruptEntry_kept h
  | tickAcknowledgement => exact execTickAcknowledgement_kept h
  | cycleBudgetExhausted => exact execCycleBudgetExhausted_kept h
  | budgetStall => exact execBudgetStall_kept h
  | sequencerWatchdogExpiry => exact execSequencerWatchdogExpiry_kept h
  | referenceTick => exact execReferenceTick_kept h
  | plantStale => exact execPlantStale_kept h
  | temperatureSample => exact execTemperatureSample_kept h
  | scrubRewrite => exact execScrubRewrite_kept h
  | controlStoreRepair => exact execControlStoreRepair_kept h
  | ledgerAudit => exact execLedgerAudit_kept h
  | ledgerRecount => exact execLedgerRecount_kept h
  | galleryTickStart => exact execGalleryTickStart_kept h
  | quantumExpiry => exact execQuantumExpiry_kept h
  | squeezeDeadline => exact execSqueezeDeadline_kept h
  | rehoming => exact execRehoming_kept h
  | fabricRequest => exact execFabricRequest_kept h
  | retryRepeat => exact execRetryRepeat_kept h
  | scratchEccWriteback => exact execScratchEccWriteback_kept h
  | retentionEntry => exact execRetentionEntry_kept h
  | bankWake => exact execBankWake_kept h
  | runtimeBlockLoad => exact execRuntimeBlockLoad_kept h
  | workDescriptor => exact execWorkDescriptor_kept h
  | workRecall => exact execWorkRecall_kept h
  | completionRecord => exact execCompletionRecord_kept h
  | mediaRequestIssue => exact execMediaRequestIssue_kept h
  | creditGrant => exact execCreditGrant_kept h
  | readBeat => exact execReadBeat_kept h
  | writeBeat => exact execWriteBeat_kept h
  | mediaResponse => exact execMediaResponse_kept h
  | mediaTimeout => exact execMediaTimeout_kept h
  | digestGrant => exact execDigestGrant_kept h
  | digestTransactionDone => exact execDigestTransactionDone_kept h
  | digestTransactionTimeout => exact execDigestTransactionTimeout_kept h
  | comparatorAnswer => exact execComparatorAnswer_kept h
  | comparatorTimeout => exact execComparatorTimeout_kept h
  | eventInputEdge => exact execEventInputEdge_kept h
  | eventInputStuck => exact execEventInputStuck_kept h
  | countDelivery => exact execCountDelivery_kept h
  | lutCellEvaluation => exact execLutCellEvaluation_kept h
  | eventOutputPulse => exact execEventOutputPulse_kept h
  | timerMatch => exact execTimerMatch_kept h
  | timerCtlWrite => exact execTimerCtlWrite_kept h
  | timerCountWrite => exact execTimerCountWrite_kept h
  | timerCmpWrite => exact execTimerCmpWrite_kept h
  | capRead => exact execCapRead_kept h
  | ticknumlRead => exact execTicknumlRead_kept h
  | tickcfgWrite => exact execTickcfgWrite_kept h
  | phaseWrite => exact execPhaseWrite_kept h
  | ledgvalWrite => exact execLedgvalWrite_kept h
  | rearm => exact execRearm_kept h
  | bankownWrite => exact execBankownWrite_kept h
  | bankretWrite => exact execBankretWrite_kept h
  | rtbaseWrite => exact execRtbaseWrite_kept h
  | irqsetWrite => exact execIrqsetWrite_kept h
  | mcfaultRestart => exact execMcfaultRestart_kept h
  | chsubWrite => exact execChsubWrite_kept h
  | lutctlWrite => exact execLutctlWrite_kept h
  | dbgctlHalt => exact execDbgctlHalt_kept h
  | dbgctlResume => exact execDbgctlResume_kept h
  | ewdkick => exact execEwdkick_kept h
  | doorbell => exact execDoorbell_kept h
  | registerWrite => exact execRegisterWrite_kept h
  | engineWatchdogExpiry => exact execEngineWatchdogExpiry_kept h
  | mpWarmResetReturn => exact execMpWarmResetReturn_kept h
  | engInfo => exact execEngInfo_kept h
  | engStatus => exact execEngStatus_kept h
  | engState => exact execEngState_kept h
  | winOpen => exact execWinOpen_kept h
  | winClose => exact execWinClose_kept h
  | ucodeStage => exact execUcodeStage_kept h
  | ucodeVerify => exact execUcodeVerify_kept h
  | ucodeCommit => exact execUcodeCommit_kept h
  | mapLoad => exact execMapLoad_kept h
  | fwStage => exact execFwStage_kept h
  | fwSwitch => exact execFwSwitch_kept h
  | patchLoad => exact execPatchLoad_kept h
  | galSqueeze => exact execGalSqueeze_kept h
  | galRelease => exact execGalRelease_kept h
  | galFence => exact execGalFence_kept h
  | galPowerOff => exact execGalPowerOff_kept h
  | galPowerRetain => exact execGalPowerRetain_kept h
  | galPowerOn => exact execGalPowerOn_kept h
  | galQuery => exact execGalQuery_kept h
  | ctxOpen => exact execCtxOpen_kept h
  | ctxClose => exact execCtxClose_kept h
  | segBind => exact execSegBind_kept h
  | progLoad => exact execProgLoad_kept h
  | progUnload => exact execProgUnload_kept h
  | workCfg => exact execWorkCfg_kept h
  | ctxQuery => exact execCtxQuery_kept h
  | budgetSet => exact execBudgetSet_kept h
  | plantCfg => exact execPlantCfg_kept h
  | holdupCfg => exact execHoldupCfg_kept h
  | tickCfg => exact execTickCfg_kept h
  | evtSub => exact execEvtSub_kept h
  | lutProg => exact execLutProg_kept h
  | timerCfg => exact execTimerCfg_kept h
  | stagger => exact execStagger_kept h
  | bbRead => exact execBbRead_kept h
  | bbMark => exact execBbMark_kept h
  | traceCfg => exact execTraceCfg_kept h
  | dbgAttachChallenge => exact execDbgAttachChallenge_kept h
  | dbgAttachResponse => exact execDbgAttachResponse_kept h
  | dbgDetach => exact execDbgDetach_kept h
  | dbgHalt => exact execDbgHalt_kept h
  | dbgResume => exact execDbgResume_kept h
  | dbgStepInstruction => exact execDbgStepInstruction_kept h
  | dbgStepMicroword => exact execDbgStepMicroword_kept h
  | stepTimeout => exact execStepTimeout_kept h
  | dbgBreakSet => exact execDbgBreakSet_kept h
  | dbgBreakClear => exact execDbgBreakClear_kept h
  | dbgPeek => exact execDbgPeek_kept h
  | dbgPoke => exact execDbgPoke_kept h
  | dbgReadmem => exact execDbgReadmem_kept h
  | dbgWritemem => exact execDbgWritemem_kept h
  | dbgXtrig => exact execDbgXtrig_kept h
  | dbgRegsRead => exact execDbgRegsRead_kept h
  | dbgRegsWrite => exact execDbgRegsWrite_kept h
  | xtInEdge => exact execXtInEdge_kept h
  | ropePulseEnd => exact execRopePulseEnd_kept h
  | recordCommit => exact execRecordCommit_kept h
  | commitCreditRise => exact execCommitCreditRise_kept h
  | tracePacket => exact execTracePacket_kept h
  | powerOnReset => exact execPowerOnReset_kept h
  | calibComplete => exact execCalibComplete_kept h
  | initComplete => exact execInitComplete_kept h
  | loadComplete => exact execLoadComplete_kept h
  | engineReset => exact execEngineReset_kept h
  | debugReset => exact execDebugReset_kept h
  | pdAck => exact execPdAck_kept h
  | pdAckTimeout => exact execPdAckTimeout_kept h
  | plwAssert => exact execPlwAssert_kept h
  | wrwaitExpiry => exact execWrwaitExpiry_kept h
  | lastLightDone => exact execLastLightDone_kept h
  | powerReturn => exact execPowerReturn_kept h
  | registerRead => exact execRegisterRead_kept h
  | timerIncrement => exact execTimerIncrement_kept h
  | sclkratioRemeasure => exact execSclkratioRemeasure_kept h
  | vddRetLoss => exact execVddRetLoss_kept h

end Sys2Proof.Machine
end

