-- ==== Sys2Proof/WellFormed.lean ====
section
/-!
DEFINITION. Which commands a configuration can meet: the sequencers, galleries and domains it has (R4, R6, R19), the
values a pin or port field can take (R54, R274, R275), and reset pulses of the shortest allowed length (R393).
-/

namespace Sys2Proof

/-- A sequencer of the configuration (R19). -/
def Variant.hasSeq (v : Variant) (q : SeqId) : Bool := decide (q.val < 8 * v.ngal)

/-- A gallery of the configuration (R6). -/
def Variant.hasGal (v : Variant) (g : GalId) : Bool := decide (g.val < v.ngal)

/-- A power domain of the configuration: PD2g and PD2g+1 of its galleries, and PD32 to PD39 (R6, R346). -/
def Variant.hasDomain (v : Variant) (d : Fin 40) : Bool :=
  decide (d.val < 2 * v.ngal) || decide (32 ≤ d.val)

/-- The sequencer a command names, if it names one. -/
def Instr.seq? : Instr → Option SeqId
  | .microwordIssue q | .scratchReadReturn q | .productLanding q | .poolLanding q | .streamStep q | .runAheadStart q
  | .yield q | .wdog q | .waitEnd q | .halt q | .haltWake q | .fptrapEntry q | .unbindRequest q | .debugHalt q
  | .deferredHaltForced q | .tickYield q | .interruptEntry q | .cycleBudgetExhausted q | .budgetStall q
  | .sequencerWatchdogExpiry q | .quantumExpiry q | .fabricRequest q | .retryRepeat q | .runtimeBlockLoad q
  | .mcfaultRestart q | .dbgctlHalt q | .dbgctlResume q | .stepTimeout q | .fbar q | .ret q | .rets q => some q
  | .pair q _ | .shadowInstruction q _ | .exceptionEntry q _ | .tickAcknowledgement q _ | .irqsetWrite q _
  | .scrubRewrite q _ _ | .controlStoreRepair q _ _ _ => some q
  | _ => none

/-- The gallery a command names, if it names one. -/
def Instr.gal? : Instr → Option GalId
  | .galleryTickStart g | .squeezeDeadline g | .workRecall g | .writeBeat g | .vddRetLoss g => some g
  | .lineAgeExpiry g _ | .scratchEccWriteback g _ | .retentionEntry g _ | .bankWake g _ | .mediaRequestIssue g _
  | .creditGrant g _ | .readBeat g _ _ _ | .mediaResponse g _ _ _ | .mediaTimeout g _ | .timerMatch g _
  | .timerCtlWrite g _ _ | .timerCountWrite g _ _ _ | .timerCmpWrite g _ _ _ | .capRead g _ | .phaseWrite g _
  | .bankownWrite g _ _ _ | .bankretWrite g _ _ | .rtbaseWrite g _ | .timerIncrement g _ => some g
  | _ => none

/-- The values a command's fields can take. -/
def Instr.fieldsOk : Instr → Bool
  | .temperatureSample src _ => decide (src.toNat < 3)
  | .readBeat _ _ nb _ => decide (1 ≤ nb.toNat ∧ nb.toNat ≤ 32)
  | .mediaResponse _ _ st _ => decide (st.toNat < 3)
  | .engineReset n | .debugReset n => decide (16 ≤ n)
  | _ => true

/-- A command that a configuration can meet. -/
def Instr.wf (v : Variant) (i : Instr) : Bool :=
  (match i.seq? with | none => true | some q => v.hasSeq q)
    && (match i.gal? with | none => true | some g => v.hasGal g)
    && (match i with | .pdAck d _ | .pdAckTimeout d => v.hasDomain d | _ => true)
    && i.fieldsOk

end Sys2Proof
end

