-- ==== Sys2Proof/Tests/Slice0.lean ====
section
/-!
SUPPORT. Tests whose expected values come from the manual's worked examples and tables, the smoke test of `Instr.wf`, and for
every statement with hypotheses a state and operands that meet them.
-/

namespace Sys2Proof.Tests

set_option Elab.async false

open Sys2Proof Sys2Proof.Machine

/-! ### Small states -/

def seg (off limit typ rights : Nat) : Desc := mkDesc (scratchAddr 0 off) limit typ rights

/-- A sequencer's registers: code at 0x2000, runtime stack at 0x4000, data at 0x10000, program stack at 0x5000. -/
def runRegs : Regs := {
  s0r := seg 0x2000 0x0FFF 1 0xD, s7r := seg 0x4000 0xFF 3 0xB, pc := 0x100, spr := 0x80, sp := 0x80, ctxid := 7
  s := #v[seg 0x2000 0x0FFF 1 0x5, seg 0x10000 0xFFFF 2 0x3, seg 0x20000 0xFFFF 6 0x3,
    mkDesc 0x4000000000000 0xFFF 5 0x3, 0, mkDesc 0 0xFFFF 4 0x1, 0, seg 0x5000 0xFF 3 0x3] }

/-- The same in program mode. -/
def progRegs : Regs := { runRegs with st := 0x0000 }

/-- G0.Q0 runs with these registers; every domain of a gallery is on. -/
def runs (r : Regs) : State := {
  pd := { on := 0x3FFFFFFFF, req := 0x3FFFFFFFF }
  seqs := (Vector.replicate 128 {}).set 0 { run := .active, regs := r, cs := { csver := 1 } } }

def s0 : State := runs runRegs
def p0 : State := runs progRegs

/-- A changed sequencer Q0. -/
def withQ (s : State) (f : Seq → Seq) : State := s.modSeq 0 f

/-- A command answers a next state of which p holds. -/
def after (i : Instr) (s : State) (p : State → Bool) : Bool :=
  match exec i s with
  | .next t => p t
  | _ => false

/-! ### The smoke test of well-formedness: one ill-formed command for each check -/

theorem smoke_sequencer : Instr.wf .it4 (.yield 32) = false := by decide
theorem smoke_gallery : Instr.wf .it8 (.writeBeat 8) = false := by decide
theorem smoke_domain : Instr.wf .it4 (.pdAck 10 true) = false := by decide
theorem smoke_temperature : Instr.wf .it16 (.temperatureSample 3 0) = false := by decide
theorem smoke_beat_empty : Instr.wf .it16 (.readBeat 0 0 0 0) = false := by decide
theorem smoke_beat_long : Instr.wf .it16 (.readBeat 0 0 33 0) = false := by decide
theorem smoke_response : Instr.wf .it16 (.mediaResponse 0 0 3 0) = false := by decide
theorem smoke_pulse : Instr.wf .it16 (.engineReset 15) = false := by decide
theorem smoke_accepted : Instr.wf .it16 (.yield 127) = true ∧ Instr.wf .it16 (.pdAck 39 true) = true ∧
    Instr.wf .it16 (.readBeat 15 0 32 0) = true ∧ Instr.wf .it16 (.debugReset 16) = true := by decide

/-! ### Worked examples of the manual -/

/-- R17, R160: the check value of CRC-32C over "123456789". -/
theorem test_crc32c : after (.crcf 0 1 0) (runs { runRegs with b := (runRegs.setW 0
    (crcBytes runRegs.crc 0xFFFFFFFF [0x31, 0x32, 0x33, 0x34, 0x35, 0x36, 0x37, 0x38, 0x39])).b })
    (fun t => (t.regs 0).W 1 = 0xE3069283) = true := by decide +kernel

/-- R17: the check value of CRC-16/IBM-3740. -/
theorem test_crc16 : crc16 [0x31, 0x32, 0x33, 0x34, 0x35, 0x36, 0x37, 0x38, 0x39] = 0x29B1 := by decide +kernel

/-- Chapter 3, "Worked example: a wide add". -/
theorem test_wide_add : after (.addW 0 2 5) (runs ((runRegs.setW 2 0x0001FFFF).setW 5 0xFFFF0001))
    (fun t => (t.regs 0).W 2 = 0x00010000 && (t.regs 0).st &&& 0xF == 2) = true := by decide +kernel

/-- Registers of "Worked example: a 16-bit add followed by a product" (chapter 6). -/
def addRegs : Regs := (((runRegs.setB 4 0xF0).setB 5 0x01).setB 6 0x20).setB 7 0

/-- Its pair at 0x0100: B4, B9 and the flags Z = 0, C = 1, N = 0, V = 0, P = 1. -/
theorem test_pair_add : after (.pair 0 0x8C861246) (runs addRegs)
    (fun t => (t.regs 0).B 4 = 0x10 && (t.regs 0).B 9 = 3 && (t.regs 0).st &&& 0x3F == 0x12) = true := by decide +kernel

/-- Its pair at 0x0104, with C = 1 from before: B5 = 2 and C = 0. -/
theorem test_pair_adc : after (.pair 0 0xF0A70000) (runs { addRegs with st := 0x03D2 })
    (fun t => (t.regs 0).B 5 = 2 && (t.regs 0).st &&& 0x3F == 0x10) = true := by decide +kernel

/-- Its product: 0x210 times 0x300. -/
theorem test_mul : after (.mul 0 1 2 4) (runs ((runRegs.setH 2 0x0210).setH 4 0x0300))
    (fun t => (t.seq 0).prods = [{ value := 0x63000, acc := false }]) = true := by decide +kernel

theorem test_product_lands : after (.productLanding 0) (withQ s0 fun x => { x with prods := [{ value := 0x63000, acc := false }] })
    (fun t => (t.regs 0).mr = 0x63000) = true := by decide +kernel

/-- Chapter 9, "Worked example: a fault with a lost runtime stack". -/
def lostStack : State := runs { runRegs with
  st := 0x0001, pc := 0x0040, spr := 0x0004, s := runRegs.s.set 1 (mkDesc 0x4000000000000 0xFFF 5 0x3) }

theorem test_double_entry : after (.ldb 0 { minor := 0, rd := 4, rs := 0, rx := 0, segn := 1 }) lostStack
    (fun t => let r := t.regs 0
      r.ecause = 0x0730 && r.eaddr = 0xFFFC && (t.seq 0).exc.origv = 4 && (t.seq 0).exc.origcause = 0x132 && r.lsp = 0x38 &&
        r.st = 0x03C1 && (t.seq 0).exc.dbl && r.spr = 0x0004) = true := by decide +kernel

theorem test_double_ledge : after (.ldb 0 { minor := 0, rd := 4, rs := 0, rx := 0, segn := 1 }) lostStack
    (fun t => let x := t.seq 0
      ((List.range 8).map fun i => x.ledgeAt (0x38 + i)) = [0x01, 0x00, 0x40, 0x00, 0x30, 0x07, 0xFC, 0xFF]) = true := by decide +kernel

/-- Chapter 8, "Worked example: a trapped overflow": FMUL.S issues, and its landing. -/
def overflowRegs : Regs := (({ runRegs with st := 0x0000, pc := 0x0300, fpc := 0x00000400 } : Regs).setW 1 0x7F7FFFFF).setW 2 0x40000000

theorem test_fmul_issues : after (.fmul 0 2 3 1 2) (runs overflowRegs)
    (fun t => (t.seq 0).pool.any (fun p => p.result = 0x7F800000 && p.flags = 0b00101) && (t.regs 0).pc = 0x0304) = true := by
  decide +kernel

theorem test_fmul_lands : after (.poolLanding 0) (withQ (runs { overflowRegs with pc := 0x030C }) fun x => { x with
      pool := some { result := 0x7F800000, dest := some (4, 3), stMask := 0, stVal := 0, fp := true, flags := 0b00101, divz := none, pc := 0x0300 } })
    (fun t => (t.regs 0).W 3 = 0x7F800000 && bit (t.regs 0).st stFPP && (t.regs 0).fpc = 0x05050400 &&
      (t.seq 0).exc.trapAddr = 0x0300) = true := by decide +kernel

/-- Chapter 12, "a filtered alarm": the routing and the cell's truth table. -/
def alarm : State := { s0 with ev := { s0.ev with
  ins := (s0.ev.ins.set 5 { mode := 4, lvl := true }).set 6 { mode := 4, lvl := true }
  cells := s0.ev.cells.set 10 { sel := 0xFFFF0605, ctl := 0x88882820 } } }

theorem test_alarm_routed : after (.chsubWrite 40 0x10010000) s0
    (fun t => t.chsub 40 = 0x10010000 && ((t.seq 1).slots[0]).v && ((t.seq 1).slots[0]).ch = 40) = true := by decide +kernel

theorem test_alarm_cell : after (.lutCellEvaluation 10) alarm
    (fun t => (t.ev.cells[10]).out && t.ev.flight == []) = true := by decide +kernel

theorem test_alarm_publishes : after (.lutCellEvaluation 10) { alarm with ev := { alarm.ev with chsub := alarm.ev.chsub.set 40 0x10010000 } }
    (fun t => t.ev.flight == [(40, 1)]) = true := by decide +kernel

/-- R219, the edges of division: MIN by -1, and by 0. -/
theorem test_div_least : after (.div 0 6 0 1 2) (runs ((runRegs.setW 1 0x80000000).setW 2 0xFFFFFFFF))
    (fun t => (t.seq 0).pool.any fun p => p.result = 0x80000000 && p.stVal = 0x0C) = true := by decide +kernel

theorem test_rem_zero : after (.rem 0 4 0 4 5) (runs ((runRegs.setB 4 0xF9).setB 5 0))
    (fun t => (t.seq 0).pool.any (fun p => p.result = 0xF9 && p.stVal = 0x24) && (t.seq 0).wait = .pool &&
      (t.regs 0).pc = 0x100) = true := by decide +kernel

/-- R149: borrow and signed overflow of a subtraction. -/
theorem test_sub_borrow : after (.subH 0 0 1) (runs ((runRegs.setH 0 0x8000).setH 1 0x0001))
    (fun t => (t.regs 0).H 0 = 0x7FFF && (t.regs 0).st &&& 0xF == 0x8) = true := by decide +kernel

/-- R159: a count of 0 leaves C. -/
theorem test_shift_zero : after (.shlW 0 0 (.imm 0)) (runs ({ runRegs with st := 0x03C2 }.setW 0 0x80000001))
    (fun t => (t.regs 0).W 0 = 0x80000001 && (t.regs 0).st &&& 0xF == 0x6) = true := by decide +kernel

/-- R153: the bytes of a word lie little-endian. -/
theorem test_store_word : after (.stw 0 { minor := 0, rd := 1, rs := 0, rx := 0, segn := 1 })
    (runs ({ runRegs with a := #v[0x10, 0, 0, 0, 0, 0, 0, 0] }.setW 1 0x04030201))
    (fun t => t.mem = [(scratchAddr 0 0x10010, 1), (scratchAddr 0 0x10011, 2), (scratchAddr 0 0x10012, 3),
      (scratchAddr 0 0x10013, 4)]) = true := by decide +kernel

/-- R152: pre-decrement. -/
theorem test_load_predecrement : after (.ldh 0 { minor := 3, rd := 1, rs := 2, rx := 0, segn := 1 })
    { runs { runRegs with a := #v[0, 0, 0x22, 0, 0, 0, 0, 0] } with mem := [(scratchAddr 0 0x10020, 0x34), (scratchAddr 0 0x10021, 0x12)] }
    (fun t => (t.regs 0).H 1 = 0x1234 && (t.regs 0).A 2 = 0x20) = true := by decide +kernel

/-- R237, R239: TRAP pushes a short frame of ST with SHORT set and the return PC; vector 48. -/
theorem test_trap : after (.trap 0 0) { runs { runRegs with st := 0x0001 } with mem := [(scratchAddr 0 0x2060, 0x40)] }
    (fun t => (t.regs 0).pc = 0x40 && (t.regs 0).spr = 0x7C && bit (t.regs 0).st 9 &&
      t.mem.readLE (scratchAddr 0 0x407E) 2 = 0x0104 && t.mem.readLE (scratchAddr 0 0x407C) 2 = 0x4001) = true := by decide +kernel

/-- R41: the reset values of TICKCFG and TGUARD are permitted. -/
theorem test_tick_permitted : tickOk 0x3E80 0x640 0x400 0x773594 = true := by decide

/-- R380: only the key 0x5A5A reloads the engine watchdog. -/
theorem test_kick : exec (.ewdkick 0x5A5B .mp) s0 = .next s0 := rfl

/-- R393: a short reset pulse is the model's one stop. -/
theorem test_short_pulse : exec (.engineReset 15) s0 = .fault .resetPulseTooShort := rfl

/-! ### Hypotheses of the statements are met: registers, accesses, control transfers -/

/-- An access succeeds. -/
def gives {α : Type} (x : Acc α) : Bool := match x with | .ok _ _ => true | _ => false

theorem ok_of_gives {α : Type} {x : Acc α} (h : gives x = true) : ∃ a v, x = .ok a v := by
  cases x with
  | ok a v => exact ⟨a, v, rfl⟩
  | _ => cases h

/-- An access succeeds with a state and value that satisfy f. -/
def givesSome {α : Type} (x : Acc α) (f : State → α → Bool) : Bool := match x with | .ok s v => f s v | _ => false

theorem ok_of_givesSome {α : Type} {x : Acc α} {f : State → α → Bool} (h : givesSome x f = true) :
    ∃ a v, x = .ok a v ∧ f a v = true := by
  cases x with
  | ok a v => exact ⟨a, v, rfl, h⟩
  | _ => cases h

/-- The checks and accesses of an entry, computed. -/
def entryPasses (q : SeqId) (a : State) (e : Entry) : Option (Nat × State × Half) :=
  let short := e.kind == .trap
  let saved := putBit (if e.vec = 6 then putBit (a.regs q).st stFPP false else (a.regs q).st) stSHORT short
  match frameCheck (a.regs q) (if short then 4 else 8), vecCheck (a.regs q) e.vec with
  | .ok fa, .ok va => match a.memRead q va 2 with
    | .ok a1 _ => match a1.memWrite q fa (frameBytes saved e.framePc e.ecause e.eaddr short) with
      | .ok b () => match b.memRead q va 2 with
        | .ok _ v => some (fa, b, BitVec.ofNat 16 (ofLeBytes v))
        | _ => none
      | _ => none
    | _ => none
  | _, _ => none

theorem passes_of_some {q : SeqId} {a : State} {e : Entry} (h : (entryPasses q a e).isSome = true) :
    ∃ fa b v, EntryPasses q a e fa b v := by
  simp only [entryPasses] at h
  split at h <;> try cases h
  rename_i fa va hf hv
  split at h <;> try cases h
  rename_i a1 v0 h0
  split at h <;> try cases h
  rename_i b h1
  split at h <;> try cases h
  rename_i b1 v h2
  exact ⟨fa, b, _, hf, va, a1, v0, b1, v, hv, h0, h1, h2, rfl⟩

theorem hyp_StepTakesTheFront : ({ State.reset with pending := [.plantStale] } : State).pending = .plantStale :: [] ∧
    State.reset.pending = [] := ⟨rfl, rfl⟩

/-- WideOperationsRetire, WideSumsAndDifferences, WideBitOperations, WideShiftsAndRotates. -/
theorem hyp_WideOperations : ∀ op ∈ [WideOp.addW, .addH, .addiW 0x80, .addiH 0x7F, .andW, .andH, .sextH, .sextW, .parW, .parH,
    .clzW, .crcW, .shlW (.imm 31), .shlH (.reg 31)], canRun 0 (wideTouch op 31 31) s0 = true ∧ canRun 0 (wideTouch op 31 0) s0 = true := by
  decide +kernel

theorem hyp_AccessCheck : runRegs.check 1 0xFFFF 1 .read = .ok (scratchAddr 0 0x1FFFF) ∧
    runRegs.check 0 0x1000 4 .exec = .error { vec := 4, cause := 0x30, seg := 0, eaddr := 0x1000 } := ⟨rfl, rfl⟩

theorem hyp_ScratchAccess : placeOf (scratchAddr 0 0xFFFFF) = .scratch 0 0xFFFFF ∧ s0.door 0 0 = .open ∧
    (s0.gal 0).bankAwake (bankOf 0xFFFFF) = true ∧ (s0.gal 0).bankAwake (bankOf (0xFFFFF + 1 - 1)) = true ∧
    s0.poisoned (scratchAddr 0 0xFFFFF) 1 = false ∧ MemOk s0 := by unfold MemOk; decide +kernel

/-- A load or store of view v at a data offset. -/
def dataForm : FormR := { minor := 2, rd := 31, rs := 7, rx := 0, segn := 1 }

theorem hyp_LoadsAndStores : ∀ v : View, canRun 0 (lsTouch v dataForm) s0 = true ∧
    OffsetIs (s0.regs 0) dataForm v.size 0 ((s0.regs 0).setA 7 (BitVec.ofNat 16 v.size)) ∧
    (s0.regs 0).check 1 0 v.size .read = .ok (scratchAddr 0 0x10000) ∧ (s0.regs 0).check 1 0 v.size .write = .ok (scratchAddr 0 0x10000) ∧
    (∃ a bs, (fetched 0 s0).memRead 0 (scratchAddr 0 0x10000) v.size = .ok a bs) ∧
    (∃ a u, (fetched 0 s0).memWrite 0 (scratchAddr 0 0x10000) (leBytes v.size ((s0.regs 0).view v 31)) = .ok a u) ∧
    MemOk s0 ∧ placeOf (scratchAddr 0 0x10000) = .scratch 0 0x10000 := by
  intro v
  refine ⟨?_, ?_, ?_, ?_, ok_of_gives ?_, ok_of_gives ?_, ?_, ?_⟩ <;> (try unfold OffsetIs) <;> (try unfold MemOk) <;> cases v <;>
    decide +kernel

/-- An access whose check fails, and a MINOR above 3. -/
theorem hyp_LoadsAndStoresFault : ∀ v : View, canRun 0 (lsTouch v { dataForm with segn := 4 }) s0 = true ∧
    OffsetIs (s0.regs 0) { dataForm with segn := 4 } v.size 0 ((s0.regs 0).setA 7 (BitVec.ofNat 16 v.size)) ∧
    (s0.regs 0).check 4 0 v.size .read = .error { vec := 4, cause := 0x31, seg := 4, eaddr := 0 } ∧
    (s0.regs 0).check 4 0 v.size .write = .error { vec := 4, cause := 0x31, seg := 4, eaddr := 0 } ∧
    canRun 0 (lsTouch v { dataForm with minor := 4 }) s0 = true ∧ 3 < ({ dataForm with minor := 4 } : FormR).minor.toNat := by
  intro v
  refine ⟨?_, ?_, ?_, ?_, ?_, ?_⟩ <;> (try unfold OffsetIs) <;> cases v <;> decide +kernel

theorem hyp_StackMovesComplete : ∀ mv ∈ [((0 : BitVec 4), View.b), (1, .h), (2, .w), (3, .a)], let v := mv.2
    canRun 0 (tView v 31) s0 = true ∧ v.size ≤ (s0.regs 0).selSp.toNat ∧
    (∃ ea, (s0.regs 0).check 7 ((s0.regs 0).selSp.toNat - v.size) v.size .write = .ok ea ∧
      ∃ a u, (fetched 0 s0).memWrite 0 ea (leBytes v.size ((s0.regs 0).view v 31)) = .ok a u) ∧
    (∃ ea, (s0.regs 0).check 7 (s0.regs 0).selSp.toNat v.size .read = .ok ea ∧ ∃ a bs, (fetched 0 s0).memRead 0 ea v.size = .ok a bs) := by
  simp only [List.forall_mem_cons, List.not_mem_nil, false_imp_iff, implies_true, and_true]
  refine ⟨⟨?_, ?_, ⟨_, rfl, ok_of_gives ?_⟩, ⟨_, rfl, ok_of_gives ?_⟩⟩, ⟨?_, ?_, ⟨_, rfl, ok_of_gives ?_⟩, ⟨_, rfl, ok_of_gives ?_⟩⟩,
    ⟨?_, ?_, ⟨_, rfl, ok_of_gives ?_⟩, ⟨_, rfl, ok_of_gives ?_⟩⟩, ⟨?_, ?_, ⟨_, rfl, ok_of_gives ?_⟩, ⟨_, rfl, ok_of_gives ?_⟩⟩⟩ <;>
    decide +kernel

theorem hyp_MovesComplete : ∀ m : Fin 16, canRun 0 (movlTouch { minor := BitVec.ofNat 4 m, rd := 7, rs := 7, rx := 7, imm := 0xFF }) s0 = true ∧
    canRun 0 (if (BitVec.ofNat 4 m) = 1 then tH 7 else tNone) s0 = true := by decide +kernel

theorem hyp_SpecialRegisterMoves :
    (∀ n : Fin 32, canRun 0 (movxTouch { minor := 1, rd := 0, rs := 0, rx := 0, imm := BitVec.ofNat 8 n }) s0 = true ∧
      canRun 0 (movxTouch { minor := 0, rd := 0, rs := 0, rx := 0, imm := BitVec.ofNat 8 n }) p0 = true) ∧
    (∀ n ∈ [0x00, 0x02, 0x03, 0x04, 0x07, 0x08, 0x09, 0x10, 0x11, 0x12, 0x13, 0x14], srAssigned n = true ∧ srReadOnly n = false) ∧
    (s0.regs 0).priv = true ∧ srAssigned 0x1F = false ∧ srPriv 0x10 = true ∧ (p0.regs 0).priv = false := by decide +kernel

def descForm : FormR := { minor := 0, rd := 8, rs := 0, rx := 0, segn := 1 }

theorem hyp_SegmentMovesComplete : canRun 0 (sldTouch descForm) s0 = true ∧ descForm.minor.toNat ≤ 1 ∧ (s0.regs 0).priv = true ∧
    descForm.rd.extractLsb' 0 3 = 0 ∧ OffsetIs (s0.regs 0) descForm 16 0 (s0.regs 0) ∧
    (s0.regs 0).check 1 0 16 .descR = .ok (scratchAddr 0 0x10000) ∧ (s0.regs 0).check 1 0 16 .descW = .ok (scratchAddr 0 0x10000) ∧
    (∃ a bs, (fetched 0 s0).memRead 0 (scratchAddr 0 0x10000) 16 = .ok a bs) ∧ sldCheck 0 0 = none ∧ sldCheck 0 (seg 0 0xFF 2 3) = some 0x31 ∧
    ∃ a u, (fetched 0 s0).memWrite 0 (scratchAddr 0 0x10000)
      (leBytes 16 ((s0.regs 0).s[0] &&& BitVec.ofNat 128 (2 ^ 72 - 1)).toNat) = .ok a u := by
  refine ⟨?_, ?_, ?_, ?_, Or.inl ⟨rfl, rfl, rfl⟩, rfl, rfl, ok_of_gives ?_, ?_, ?_, ok_of_gives ?_⟩ <;> decide +kernel

/-- ControlTransfersComplete and BranchConditions. -/
theorem hyp_ControlTransfersComplete : canRun 0 tNone s0 = true ∧ 2 ≤ (s0.regs 0).selSp.toNat ∧
    (∃ ea, (s0.regs 0).check 7 ((s0.regs 0).selSp.toNat - 2) 2 .write = .ok ea ∧ ∃ a u, (fetched 0 s0).memWrite 0 ea [4, 1] = .ok a u) ∧
    (∃ ea, (s0.regs 0).check 7 (s0.regs 0).selSp.toNat 2 .read = .ok ea ∧ ∃ a bs, (fetched 0 s0).memRead 0 ea 2 = .ok a bs) ∧
    (∀ m : Fin 16, canRun 0 (tSt (jccMask (BitVec.ofNat 4 m))) s0 = true) ∧
    canRun 0 (tB 31) s0 = true ∧
    (runs (runRegs.setB 31 1)).regs 0 = runRegs.setB 31 1 ∧ (runRegs.setB 31 1).B 31 = 1 ∧ (s0.regs 0).B 31 ≠ 1 := by
  refine ⟨?_, ?_, ⟨_, rfl, ok_of_gives ?_⟩, ⟨_, rfl, ok_of_gives ?_⟩, ?_, ?_, rfl, ?_, ?_⟩ <;> decide +kernel

/-- The entry of a GATE, in a state without an item. -/
def gateEntry : Entry := { vec := 32, ecause := 0, eaddr := 0x100, framePc := 0x104, ipc := 0x100, kind := .gate }

/-- The state from which an entry of n words is made. -/
def atEntry (s : State) (n : Nat) : State := (s.landAll 0).cycles 0 (List.replicate n 0xB)

theorem hyp_EntrySavesAndEnters : gateEntry.vec ≠ 6 ∧ bit ((atEntry s0 9).regs 0).st stFPP = false ∧ KeepsItem ((atEntry s0 9).seq 0) ∧
    ((atEntry p0 9).seq 0).exc.dbl = false ∧ ((atEntry p0 9).regs 0).ml ≠ 7 ∧ KeepsItem ((atEntry p0 9).seq 0) ∧
    (∃ fa b h, EntryPasses 0 (atEntry s0 9) gateEntry fa b h) ∧
    (∃ fa b h, EntryPasses 0 (atEntry s0 8) { gateEntry with vec := 48, kind := .trap } fa b h) ∧
    (∃ fa b h, EntryPasses 0 (atEntry s0 9) { gateEntry with vec := 17, kind := .int 1 } fa b h) ∧
    ∃ fa b h, EntryPasses 0 (atEntry p0 9) { gateEntry with vec := 1, kind := .fault } fa b h := by
  refine ⟨?_, ?_, ?_, ?_, ?_, ?_, passes_of_some ?_, passes_of_some ?_, passes_of_some ?_, passes_of_some ?_⟩ <;>
    (try unfold KeepsItem) <;> decide +kernel

theorem hyp_CallsAndIllegalWordsEnter : canRun 0 tNone s0 = true ∧ (15 : Byte).toNat < 16 ∧ 16 ≤ (16 : Byte).toNat ∧
    (s0.seq 0).dbg.brkhalt = false ∧
    (let s := withQ s0 fun x => { x with dbg := { x.dbg with brkhalt := true } }
     (s.seq 0).dbg.brkhalt = true ∧ canRun 0 tNone s = true ∧ (s.seq 0).dhalt = false) ∧
    (0x70 ≤ (0x7F : BitVec 7).toNat ∧ (0x0F : BitVec 7).toNat = 0x0F) ∧ majorAssigned 0x08 = true ∧ minorListed 0x08 9 = false ∧
    (s0.seq 0).store.entry (511 : BitVec 9).toNat = 0 ∧ (s0.seq 0).store.mue.contains (511 : BitVec 9).toNat = false := by
  decide +kernel

/-- A state whose runtime stack holds a frame, and one with DBL set. -/
theorem hyp_ReturnsRestore : canRun 0 (tSt 0xFFFF) s0 = true ∧ (s0.regs 0).priv = true ∧ (s0.seq 0).exc.dbl = false ∧
    (∃ ea, (s0.regs 0).check 7 0x80 2 .read = .ok ea ∧ ∃ a bs, (fetched 0 s0).memRead 0 ea 2 = .ok a bs) ∧
    (∃ ea, (s0.regs 0).check 7 0x80 8 .read = .ok ea ∧ ∃ a bs, (fetched 0 s0).memRead 0 ea 8 = .ok a bs) ∧
    (let d := withQ s0 fun x => { x with exc := { x.exc with dbl := true }, regs := { x.regs with lsp := 0x38 } }
     canRun 0 (tSt 0xFFFF) d = true ∧ (d.regs 0).priv = true ∧ (d.seq 0).exc.dbl = true) := by
  refine ⟨?_, ?_, ?_, ⟨_, rfl, ok_of_gives ?_⟩, ⟨_, rfl, ok_of_gives ?_⟩, ?_⟩ <;> decide +kernel

theorem hyp_PrivilegedInProgramMode : (p0.regs 0).priv = false ∧ canRun 0 tNone p0 = true ∧ (7 : Byte).toNat < 8 ∧ (31 : Byte).toNat < 32 ∧
    canRun 0 (tSt 0x20) p0 = true ∧ canRun 0 (tSt 0x01) p0 = true ∧ canRun 0 ((tB 31).or (tSt 0x01)) p0 = true ∧
    canRun 0 (tSt 0xFFFF) p0 = true ∧ canRun 0 (sldTouch descForm) p0 = true ∧ descForm.rd.extractLsb' 0 3 = 0 ∧
    canRun 0 (movxTouch { minor := 1, rd := 0, rs := 0, rx := 0, imm := 0x14 }) p0 = true ∧ srPriv 0x14 = true ∧ srReadOnly 0x14 = false := by decide +kernel

/-! ### Hypotheses: products, the pool, system operations -/

theorem hyp_ProductsIssueAndLand : widthOf 6 = some .w ∧ canRun 0 ((tView .w 31).or (tView .w 30)) s0 = true ∧ widthOf 3 = none ∧
    canRun 0 tNone s0 = true ∧ (let p := withQ s0 fun x => { x with prods := [{ value := 1, acc := true }] }
      (p.seq 0).prods = { value := 1, acc := true } :: [] ∧ p.alive 0 = true) := by decide +kernel

theorem hyp_DivisionsIssue : ∀ mv ∈ [((0 : BitVec 4), View.b), (5, .h), (6, .w)], widthOf mv.1 = some mv.2 ∧ (s0.seq 0).pool = none ∧
    canRun 0 ((((tView mv.2 31).or (tView mv.2 30)).or (tView mv.2 29)).or (tSt 0x2D)) s0 = true ∧
    (let r := (runRegs.setW 30 0x80000000).setW 29 0xFFFFFFFF
     r.viewInt .w true 29 = -1 ∧ r.viewInt .w true 30 = -(2 ^ 31)) := by decide +kernel

theorem hyp_FloatingPointIssues : (s0.seq 0).pool = none ∧ (∀ m : Fin 3, (fmtOf m).isSome = true ∧
      canRun 0 (arithTouch (BitVec.ofNat 4 m) 31 30 29 true) s0 = true ∧ canRun 0 (arithTouch (BitVec.ofNat 4 m) 31 30 29 false) s0 = true ∧
      canRun 0 (fclassTouch (BitVec.ofNat 4 m) 31 30) s0 = true) ∧
    (∀ m ∈ [(0 : BitVec 4), 5, 10], (fmtOf (m.toNat % 4)).isSome = true ∧ canRun 0 (fminmaxTouch m 31 30 29) s0 = true ∧
      canRun 0 (fcmpTouch m 30 29) s0 = true) := by decide +kernel

/-- FCVT from a signed word, between formats and to a word with RTZ. -/
theorem hyp_FloatingPointIssues_cvt : ∃ a b c d, cvtType 0 = some (.flt a) ∧ cvtType 2 = some (.flt b) ∧ cvtType 6 = some (.int c d) ∧
    canRun 0 (fcvtTouch 0 31 30 6) s0 = true ∧ canRun 0 (fcvtTouch 0 31 30 2) s0 = true ∧ canRun 0 (fcvtTouch 6 31 30 18) s0 = true ∧
    bit (6 : BitVec 5) 4 = false := by
  refine ⟨_, _, _, _, rfl, rfl, rfl, ?_⟩; decide +kernel

theorem hyp_FloatingPointResults : 0 < (1 : Nat) + 0 ∧ (FVal.inf false).isNan = false := by decide

/-- An operation in flight; its instruction holds or has retired. -/
def inFlight (w : Wait) : State := withQ s0 fun x => { x with wait := w, pool := some {
  result := 1, dest := some (4, 1), stMask := 0, stVal := 0, fp := true, flags := 1, divz := none, pc := 0x100 } }

theorem hyp_PoolOperationsLand : ((inFlight .none).seq 0).pool.isSome = true ∧ (inFlight .none).alive 0 = true ∧
    ((inFlight .none).seq 0).wait ≠ .pool ∧ ((inFlight .pool).seq 0).pool.isSome = true ∧ (inFlight .pool).alive 0 = true ∧
    canRun 0 tNone s0 = true ∧ (s0.seq 0).pool = none ∧ canRun 0 tNone (inFlight .none) = true := by decide +kernel

theorem hyp_SystemOperationsComplete : (s0.regs 0).priv = true ∧ canRun 0 tNone s0 = true ∧ (7 : Byte).toNat < 8 ∧ 8 ≤ (8 : Byte).toNat ∧
    canRun 0 (tSt 0x20) s0 = true ∧ (31 : Byte).toNat < 32 ∧ 32 ≤ (32 : Byte).toNat ∧ (fetched 0 s0).stimOk 0 31 = false ∧
    (let t := { s0 with gals := s0.gals.set 0 { s0.gals[0] with stimen := 0xFFFFFFFF }, trace := { ctl := 0x80000001, seqs := 1 } }
     (t.regs 0).priv = true ∧ canRun 0 (tSt 0x20) t = true ∧ (fetched 0 t).stimOk 0 31 = true) := by
  decide +kernel

def lockForm : FormR := { minor := 0, rd := 3, rs := 0, rx := 0, segn := 2 }
def locked (l : Option Nat) : State := withQ s0 fun x => { x with lock := l }

theorem hyp_LocksAndYield : lockForm.minor = 0 ∧ (s0.regs 0).check 2 0 4 .hold = .ok (scratchAddr 0 0x20000) ∧
    canRun 0 ((tW 3).or (tSt 0x21)) s0 = true ∧ (s0.seq 0).lock = none ∧ (∀ p : SeqId, p ≠ 0 → (s0.seq p).lock ≠ some (scratchAddr 0 0x20000)) ∧
    (∃ a bs, (fetched 0 s0).memRead 0 (scratchAddr 0 0x20000) 4 = .ok a bs) ∧
    (let m := locked (some (scratchAddr 0 0x20000))
     canRun 0 ((tW 3).or (tSt 0x21)) m = true ∧ canRun 0 ((tW 3).or (tSt 0x01)) m = true ∧ (m.seq 0).lock = some (scratchAddr 0 0x20000) ∧
      (m.regs 0).check 2 0 4 .hold = .ok (scratchAddr 0 0x20000)) ∧
    (∃ a u, (fetched 0 (locked (some (scratchAddr 0 0x20000)))).memWrite 0 (scratchAddr 0 0x20000) [0, 0, 0, 0] = .ok a u) ∧
    (let o := s0.modSeq 1 fun x => { x with lock := some (scratchAddr 0 0x20000) }
     (o.seq 0).lock = none ∧ (o.seq 1).lock = some (scratchAddr 0 0x20000) ∧ canRun 0 ((tW 3).or (tSt 0x21)) o = true) ∧
    canRun 0 tNone s0 = true ∧ (s0.seq 0).quantumUp = false ∧ (s0.seq 0).pool = none ∧ (s0.seq 0).prods = [] := by
  refine ⟨?_, ?_, ?_, ?_, ?_, ok_of_gives ?_, ?_, ok_of_gives ?_, ?_, ?_, ?_, ?_, ?_⟩ <;> decide +kernel

/-- Q0 with a subscription slot for channel 9 that holds n counts, and that channel routed to it. -/
def subscribed (n : BitVec 4) : State :=
  let s := withQ s0 fun x => { x with slots := x.slots.set 7 { v := true, ovr := false, pend := n, ch := 9 } }
  { s with ev := { s.ev with chsub := s.ev.chsub.set 9 0x10000007 } }

theorem hyp_EventOperationsComplete : (s0.regs 0).priv = true ∧ canRun 0 tNone s0 = true ∧ chType (s0.ev.chsub[9]) = 0 ∧
    canRun 0 tNone (subscribed 15) = true ∧ chType ((subscribed 15).ev.chsub[9]) ≠ 0 ∧ (subscribed 15).ev.flying 9 = false ∧
    (let s := { subscribed 15 with ev := { (subscribed 15).ev with flight := [(9, 1)] } }
     canRun 0 tNone s = true ∧ chType (s.ev.chsub[9]) ≠ 0 ∧ s.ev.flying 9 = true) ∧ canRun 0 (tSt 0x01) (subscribed 15) = true ∧
    ((subscribed 15).seq 0).slotOf 9 = some 7 ∧ ((subscribed 15).seq 0).pendOf 9 ≠ 0 ∧ (s0.seq 0).pendOf 9 = 0 ∧
    canRun 0 (tSt 0x01) s0 = true ∧ canRun 0 ((tB 31).or (tSt 0x01)) (subscribed 15) = true := by decide +kernel

def anItem : Item := { ctx := 7, scope := 0, entry := 0, args := #v[0, 0, 0, 0], started := false, ticks := 4 }

theorem hyp_WaitsEnd : canRun 0 (tSt 0x01) (subscribed 1) = true ∧ ((subscribed 1).regs 0).priv = true ∧ ((subscribed 1).seq 0).pendOf 9 ≠ 0 ∧
    (let m := s0.modGal 0 fun x => { x with timers := x.timers.set 7 { matched := true } }
     canRun 0 (tSt 0x01) m = true ∧ (((fetched 0 m).gal 0).timers[7]).matched = true) ∧
    canRun 0 (tSt 0x01) s0 = true ∧ (s0.seq 0).bud.budx = false ∧ (s0.seq 0).irqNow = false ∧ (s0.seq 0).dhalt = false ∧
    (s0.seq 0).unbind = none ∧ (s0.seq 0).stepping = false ∧ (s0.seq 0).pendOf 9 = 0 ∧ (((fetched 0 s0).gal 0).timers[7]).matched = false ∧
    (let w := withQ (subscribed 1) fun x => { x with wait := .waite 9 }
     Issuing w 0 ∧ (w.seq 0).wait = .waite 9 ∧ (w.seq 0).pendOf 9 ≠ 0) ∧
    (let w := withQ s0 fun x => { x with wait := .waiteT 7, dhalt := true }
     Issuing w 0 ∧ (w.seq 0).wait = .waiteT 7 ∧ ((w.gal 0).timers[7]).matched = false ∧ (w.seq 0).dhalt = true) ∧
    (s0.seq 0).prefetch = none ∧ (s0.seq 0).bound = false ∧
    (let w := withQ s0 fun x => { x with wait := .halt, dhalt := true }
     Issuing w 0 ∧ (w.seq 0).wait = .halt ∧ (w.seq 0).prefetch = none ∧ (w.seq 0).bound = true) ∧
    (let w := withQ s0 fun x => { x with wait := .halt, running := some anItem, prefetch := some { anItem with ctx := 8 } }
     Issuing w 0 ∧ (w.seq 0).wait = .halt ∧ (w.seq 0).prefetch ≠ none ∧ (w.seq 0).running ≠ none) := by
  unfold Issuing; decide +kernel

/-! ### Hypotheses: stream instructions -/

/-- Ss = S1, Sd = S1; Wd = W1, Ws = W2, Wx = W4 and Wp = W5. -/
def strm : FormS := { ss := 1, sd := 1, rd := 1, rs := 2, rx := 4 }
def longKinds : List LongKind := [.copy, .scan, .crcs, .matchS, .matchF, .hashs, .filt, .dgst, .fills, .cmps]
/-- Registers with a length and Wp. -/
def strmRegs (n p : Word) : Regs := (({ runRegs with st := 0x03C0 }.setW 4 n).setW 5 p).setW 1 0x100

theorem hyp_LongInstructionsBegin :
    (∀ k ∈ longKinds, canRun 0 (longTouch k strm) (runs (strmRegs 0 0)) = true ∧ canRun 0 (longTouch k strm) (runs (strmRegs 64 8)) = true) ∧
    ((strmRegs 0 0).wp strm).toNat = 0 ∧ 32 < ((strmRegs 33 33).wp strm).toNat ∧
    (strmRegs 0 0).wx strm = 0 ∧ (strmRegs 64 8).wx strm = 64 ∧ 1 ≤ ((strmRegs 64 8).wp strm).toNat ∧ ((strmRegs 64 8).wp strm).toNat ≤ 15 ∧
    copyOverlap (strmRegs 64 8) strm = false ∧ bit (strmRegs 0 0).st stRES = false := by decide +kernel

theorem hyp_LongInstructionsBegin_tables : let s := runs (strmRegs 64 8)
    (∃ a, (fetched 0 s).streamCheck 0 1 .scratch 0x100 32 .sread = .ok a ∧ ∃ b bs, (fetched 0 s).memRead 0 a 32 = .ok b bs) ∧
    (∃ a, (fetched 0 s).streamCheck 0 1 .scratch 0x100 8 .sread = .ok a ∧ ∃ b bs, (fetched 0 s).memRead 0 a 8 = .ok b bs) ∧
    (∃ a, hashsCheck 0 (freshLong .hashs false strm (strmRegs 64 8)) (fetched 0 s) = .ok a) ∧
    (∃ a, (fetched 0 s).streamCheck 0 1 .scratch 8 32 .sread = .ok a ∧
      ∃ b bs, (fetched 0 { s with mem := [(scratchAddr 0 0x10008, 8), (scratchAddr 0 0x1000C, 1)] }).memRead 0 a 32 = .ok b bs ∧
        (filtOk bs && decide (imgNat bs 0 2 ≤ 64)) = true) := by
  refine ⟨⟨_, rfl, ok_of_gives ?_⟩, ⟨_, rfl, ok_of_gives ?_⟩, ⟨_, rfl⟩, ⟨_, rfl, ok_of_givesSome (f := fun _ bs => filtOk bs && decide (imgNat bs 0 2 ≤ 64)) ?_⟩⟩ <;> decide +kernel

/-- At a step of a long instruction. -/
def stepping (k : LongKind) (n : Word) : State :=
  withQ (runs (strmRegs n 0)) fun x => { x with wait := .long { kind := k, v := false, f := strm, loaded := true, base := 0x100 } }

theorem hyp_StreamStepsAdvance : (∀ k ∈ longKinds,
      AtStep (stepping k 32) 0 { kind := k, v := false, f := strm, loaded := true, base := 0x100 } ∧ ((stepping k 32).regs 0).wx strm ≠ 0) ∧
    (let s := stepping .copy 33
     s.streamCheck 0 1 .any 0 32 .sread = .ok (scratchAddr 0 0x10000) ∧ s.streamCheck 0 1 .any 0x100 32 .swrite = .ok (scratchAddr 0 0x10100) ∧
     (∃ a bs, s.memRead 0 (scratchAddr 0 0x10000) 32 = .ok a bs ∧ gives (a.memWrite 0 (scratchAddr 0 0x10100) bs) = true) ∧
     ∃ b u, s.memWrite 0 (scratchAddr 0 0x10100) ((List.range 32).map fun _ => 0) = .ok b u) ∧
    (let s := withQ (stepping .crcs 32) fun x => { x with dhalt := true }
     Issuing s 0 ∧ (s.seq 0).wait = .long { kind := .crcs, v := false, f := strm, loaded := true, base := 0x100 } ∧ (s.seq 0).bound = true) := by
  refine ⟨?_, ⟨?_, ?_, ok_of_givesSome ?_, ok_of_gives ?_⟩, ?_⟩ <;> (try unfold AtStep) <;> (try unfold Issuing) <;> decide +kernel

/-- At a step of a long instruction of this kind, with its table, registers and memory. -/
def stepOf (k : LongKind) (table : List Byte) (n p : Word) (m : Memory) : State :=
  withQ { runs (strmRegs n p) with mem := m } fun x => { x with wait := .long { kind := k, v := false, f := strm, loaded := true, table := table } }

/-- The source of a step reads these bytes, and where two operands are read, so does the other. -/
def stepReads (s : State) (n : Nat) (xs : List Byte) : Bool := givesSome (s.memRead 0 (scratchAddr 0 0x10000) n) fun _ bs => bs == xs
def stepReads2 (s : State) (n : Nat) (f : List Byte → List Byte → Bool) : Bool :=
  givesSome (s.memRead 0 (scratchAddr 0 0x10000) n) fun a xs =>
    givesSome (a.memRead 0 (scratchAddr 0 0x10100) n) fun _ ys => f xs ys

/-- SCAN without a hit and with one at byte 0; MATCH and CMPS of equal and of unequal bytes; MATCH.F without its pattern and with
it at byte 0. -/
theorem hyp_StreamStepsAdvance_finds : let zeros := List.replicate 32 (0 : Byte)
    (let s := stepOf .scan [] 32 0 []
     stepReads s 32 zeros = true ∧ zeros.all (fun x => !bit (([] : List Byte).getD (x.toNat / 8) 0) (x.toNat % 8)) = true) ∧
    bit (([1] : List Byte).getD 0 0) 0 = true ∧ stepReads (stepOf .scan [1] 32 0 []) 32 zeros = true ∧
    stepReads2 (stepOf .matchS [] 32 0 []) 32 (fun xs ys => xs == ys) = true ∧
    stepReads2 (stepOf .cmps [] 32 0 [(scratchAddr 0 0x1001F, 1)]) 32 (fun xs ys => xs.take 31 == ys.take 31 && xs.getD 31 0 == 1 &&
      ys.getD 31 0 == 0) = true ∧
    bit ((stepOf .cmps [] 32 0 []).regs 0).st stCT = false ∧ bit (({ runRegs with st := 0x0400 } : Regs)).st stCT = true ∧
    (let s := stepOf .matchF [1] 32 0 []
     (s.regs 0).wx strm = 32 ∧ stepReads s 32 zeros = true ∧ (List.range 32).all (fun j => (zeros.drop j).take 1 != [1]) = true) ∧
    stepReads (stepOf .matchF [0] 32 0 []) 32 zeros = true ∧ (zeros.drop 0).take 1 = [(0 : Byte)] := by decide +kernel

/-- FILT's descriptor: records of one byte, OP 7 (every record); and with NOOUT. -/
def filtAll (flags : Byte) : List Byte := [1, 0, 0, 0, 1, 7, flags, 0] ++ List.replicate 24 0

/-- FILT with its output written and counted only; DGST.P without a session and with one. -/
theorem hyp_StreamStepsAdvance_filters : (let s := stepOf .filt (filtAll 0) 32 0 []
     (s.regs 0).wx strm = 32 ∧ ({ kind := .filt, v := false, f := strm, table := filtAll 0 } : LongOp).rsize = 1 ∧
      ({ kind := .filt, v := false, f := strm, table := filtAll 0 } : LongOp).remaining (s.regs 0) = 32 ∧
      s.streamCheck 0 1 .scratch 0x100 32 .swrite = .ok (scratchAddr 0 0x10100) ∧
      givesSome (s.memRead 0 (scratchAddr 0 0x10000) 32) (fun a xs => gives (a.memReach 0 (scratchAddr 0 0x10100) 32) &&
        gives (a.memWrite 0 (scratchAddr 0 0x10100) xs)) = true) ∧
    bit ((filtAll 2).getD 6 0) 1 = true ∧ filtSelect (filtAll 2) [9] = true ∧
    (let s := stepOf .dgst [] 32 0 []
     stepReads s 32 (List.replicate 32 0) = true ∧ s.sessionOf 7 = none) ∧
    (let y : Session := { opened := true, ctx := 7, alg := 1, started := true }
     let s := { stepOf .dgst [] 32 0 [] with dg := { ses := (Vector.replicate 256 {}).set 1 y } }
     stepReads s 32 (List.replicate 32 0) = true ∧ s.sessionOf 7 = some 1 ∧ y.err = 0 ∧ y.user = none ∧ s.dgTransit 1 = 0 ∧
      y.count + y.buf.length + 32 < 2 ^ 61 ∧ y.buf.length + 32 < y.block) := by decide +kernel

/-- A range of awake banks in reach is reached now. -/
theorem reach_awake {s : State} {q : SeqId} {a n : Nat} {g : GalId} {off : Nat} (hp : placeOf a = .scratch g off)
    (hd : s.door q g = .open) (h1 : (s.gal g).bankAwake (bankOf off) = true) (h2 : (s.gal g).bankAwake (bankOf (off + n - 1)) = true) :
    s.memReach q a n = .ok s () := by
  simp [State.memReach, hp, hd, h1, h2]

/-- HASHS of 8 windows into a table of 256 entries, each of which can be reached. -/
theorem hyp_StreamStepsAdvance_hashs : let s := stepOf .hashs [] 32 8 []
    (s.regs 0).wx strm = 32 ∧ s.streamCheck 0 1 .scratch 0x100 (2 * 2 ^ 8) .swrite = .ok (scratchAddr 0 0x10100) ∧ 0x100 % 2 = 0 ∧
    ∃ a xs, s.memRead 0 (scratchAddr 0 0x10000) 11 = .ok a xs ∧
      ∀ h, h < 2 ^ 8 → (∀ o, placeOf (scratchAddr 0 0x10100 + 2 * h) ≠ .ctx o) ∧ a.memReach 0 (scratchAddr 0 0x10100 + 2 * h) 2 = .ok a () := by
  refine ⟨by decide +kernel, by decide +kernel, rfl, ?_⟩
  obtain ⟨a, xs, e, k⟩ := ok_of_givesSome (x := (stepOf .hashs [] 32 8 []).memRead 0 (scratchAddr 0 0x10000) 11)
    (f := fun a _ => decide (a.door 0 0 = .open) && (a.gal 0).bankAwake 1) (by decide +kernel)
  have all : ∀ h : Fin 256, placeOf (scratchAddr 0 0x10100 + 2 * h.val) = .scratch 0 (0x10100 + 2 * h.val) ∧
      bankOf (0x10100 + 2 * h.val) = 1 ∧ bankOf (0x10100 + 2 * h.val + 2 - 1) = 1 := by decide +kernel
  simp only [Bool.and_eq_true, decide_eq_true_eq] at k
  refine ⟨a, xs, e, fun h lt => ?_⟩
  obtain ⟨p, b1, b2⟩ := all ⟨h, lt⟩
  exact ⟨fun o => (by rw [p]; exact fun n => by cases n), reach_awake p k.1 (b1 ▸ k.2) (b2 ▸ k.2)⟩

/-- A FETCH from the media window S5 to S1, a PUT from S1 to the buffer window S3, and WAITT. -/
theorem hyp_TransfersBegin :
    (let s := runs (strmRegs 0x100000 0)
     canRun 0 (((tW 2).or (tW 1)).or (tW 4)) (runs (strmRegs 0 0)) = true ∧
     canRun 0 (((tW 2).or (tW 1)).or (tW 4)) (runs (strmRegs 0x100001 0)) = true ∧
     canRun 0 (((tW 2).or (tW 1)).or (tW 4)) s = true ∧ (strmRegs 0x100001 0).wx strm = 0x100001) ∧
    (let s := runs (strmRegs 0x1000 0)
     (∃ e, (fetched 0 s).streamCheck 0 5 .window 0 0x1000 .sread = .ok e ∧ (fetched 0 s).fetchLine 0 e (min 0x1000 4096) = none) ∧
     (∃ d, (fetched 0 s).streamCheck 0 1 .own 0x100 0x1000 .swrite = .ok d ∧ ((fetched 0 s).banksReady 0 (d % 0x100000) 0x1000).isNone = true) ∧
     (∃ e, (fetched 0 s).streamCheck 0 1 .own 0 0x1000 .sread = .ok e ∧ ((fetched 0 s).banksReady 0 (e % 0x100000) 0x1000).isNone = true) ∧
     ∃ d, (fetched 0 s).streamCheck 0 3 .window 0x100 0x1000 .swrite = .ok d) ∧
    (let s := (runs (strmRegs 0x1000 0)).modGal 0 fun x => { x with lines := x.lines.set 15 { busy := true, ctx := 7, m := 0x1000 } }
     (fetched 0 s).streamCheck 0 5 .window 0 0x1000 .sread = .ok 0 ∧ (fetched 0 s).fetchLine 0 0 0x1000 = some 15 ∧
      (fetched 0 s).ctxXcnt 7 < 64 ∧ (((fetched 0 s).gal 0).lines[15]).outcome = none) ∧
    canRun 0 ((tW 1).or (tSt 0x01)) s0 = true ∧ (fetched 0 s0).ctxXcnt 7 ≤ 0 ∧
    (let s := { s0 with mem := [(ctxAddr 7 + 0x14, 64)] }
     canRun 0 ((tW 1).or (tSt 0x01)) s = true ∧ 63 < (fetched 0 s).ctxXcnt 7) := by
  refine ⟨?_, ⟨⟨_, rfl, ?_⟩, ⟨_, rfl, ?_⟩, ⟨_, rfl, ?_⟩, ⟨_, rfl⟩⟩, ?_, ?_, ?_, ?_⟩ <;> decide +kernel

/-! ### Hypotheses: the media channel, run-ahead, the digest -/

/-- A PUT of 16 bytes from gallery offset 0x10000, and a FETCH of 32 bytes to it, of G0.Q0 and context 7. -/
def putReq : MReq := { rid := 0, addr := 0x4000000000000, len := 16, ctx := 7, tenant := 0, seq := 0, purpose := .put 5 (scratchAddr 0 0x10000) }
def fetchReq : MReq := { putReq with len := 32, purpose := .fetch 5 false (scratchAddr 0 0x10000) }
def specReq : MReq := { fetchReq with purpose := .spec 15 }
def tagOf (r : MReq) (sump : Bool) (age : Nat) : Tag := {
  tag := 1023, no := 0, req := r, delivered := 0, sent := 0, sump := sump, orphan := false, age := age, resv := 0, noResv := true, sourceUe := false }
def channel (f : Media → Media) : State := s0.modGal 0 fun x => { x with md := f x.md }

theorem hyp_RequestsAndCredits : (let s := withQ (channel fun m => { m with rq := 1, rd := 0, waiting := [putReq] }) fun x => { x with wait := .media 0 }
     s.logicOn 0 = true ∧ (s.gal 0).md.rq ≠ 0 ∧ (∀ t ∈ (s.gal 0).md.tags, t.tag ≠ 1023) ∧ s.pickReq 0 = some putReq ∧
      (s.seq putReq.seq).wait = .media putReq.rid) ∧
    (let s := channel fun m => { m with rq := 1, rd := 1, waiting := [fetchReq] }
     s.pickReq 0 = some fetchReq ∧ (s.seq fetchReq.seq).wait ≠ .media fetchReq.rid) ∧
    s0.present 15 = true ∧ ((channel fun m => { m with rq := 254, rd := 4094, wd := 4094 }).gal 0).md.rq < 255 ∧
    255 ≤ ((channel fun m => { m with rq := 255, rd := 4095, wd := 4095 }).gal 0).md.rq := by decide +kernel

theorem hyp_BeatsMoveBytes : s0.present 0 = true ∧ (∀ y ∈ (s0.gal 0).md.tags, y.tag ≠ 1023) ∧
    (let s := channel fun m => { m with tags := [tagOf fetchReq false 0] }
     (s.gal 0).md.tags.find? (fun y => y.tag = 1023 && !y.req.purpose.isWrite) = some (tagOf fetchReq false 0) ∧ MemOk s) ∧
    (tagOf fetchReq false 0).req.purpose = .fetch 5 false (scratchAddr 0 0x10000) ∧ (32 : BitVec 6).toNat ≤ 32 ∧
    (32 : BitVec 6).toNat ≤ (tagOf fetchReq false 0).req.len - (tagOf fetchReq false 0).delivered ∧
    (let s := channel fun m => { m with tags := [tagOf fetchReq true 0] }
     (s.gal 0).md.tags.find? (fun y => y.tag = 1023 && !y.req.purpose.isWrite) = some (tagOf fetchReq true 0) ∧ (tagOf fetchReq true 0).sump = true) ∧
    (let s := channel fun m => { m with tags := [tagOf specReq false 0] }
     (s.gal 0).md.tags.find? (fun y => y.tag = 1023 && !y.req.purpose.isWrite) = some (tagOf specReq false 0)) ∧
    (let s := channel fun m => { m with wd := 1, tags := [tagOf putReq false 0] }
     (s.gal 0).md.wd ≠ 0 ∧ (s.gal 0).md.nextWrite = some (tagOf putReq false 0) ∧ regionOf putReq.addr = 1 ∧ MemOk s) ∧
    (let s := channel fun m => { m with wd := 1, unsent := [tagOf { putReq with addr := 0 } false 0] }
     (s.gal 0).md.nextWrite = some (tagOf { putReq with addr := 0 } false 0) ∧ regionOf 0 ≠ 1) := by unfold MemOk; decide +kernel

/-- Two transfers of context 7: one that is answered, and one that is not. -/
def xferOf (r : Option (BitVec 3 × Nat)) : Xfer := { xid := 5, ctx := 7, gal := 0, len := 16, m := 16, isPut := true, first := r, second := none, split := false }
def transferring (r : Option (BitVec 3 × Nat)) : State :=
  let s := channel fun m => { m with tags := [tagOf putReq false 1000] }
  withQ { s with work := { s.work with xfers := [xferOf r] } } fun x => { x with regs := { x.regs with ctxid := 0xFFFF } }

theorem hyp_ResponsesResolve : s0.present 0 = true ∧ (∀ y ∈ (s0.gal 0).md.tags, y.tag ≠ 1023) ∧
    (let s := transferring none
     (s.gal 0).md.tags.find? (fun y => y.tag = 1023) = some (tagOf putReq false 1000) ∧ (tagOf putReq false 1000).sump = false ∧
      (tagOf putReq false 1000).sourceUe = false ∧ (tagOf putReq false 1000).orphan = false ∧ (s.gal 0).md.tmo.toNat ≤ 1000 ∧
      s.work.xfers.find? (fun y => y.ctx == 7) = some (xferOf none) ∧ (xferOf none).result = none) ∧
    (let s := transferring (some (outOK, 16))
     s.work.xfers.find? (fun y => y.ctx == 7) = some (xferOf (some (outOK, 16))) ∧ s.boundSeq 7 = none ∧
      (xferOf (some (outOK, 16))).result = some (outOK, 16)) := by decide +kernel

/-- The context is bound to Q0, which runs, or waits in a WAITT whose hold goes on, or ends. -/
def waitingFor (w : Wait) (n : Byte) : State :=
  let s := channel id
  let s := withQ { s with work := { s.work with xfers := [xferOf (some (outERROR, 16))] } } fun x => { x with running := some anItem, wait := w }
  { s with mem := [(ctxAddr 7 + 0x14, n)] }

theorem hyp_ResponsesResolve_bound :
    (let s := waitingFor .none 2
     s.work.xfers.find? (fun y => y.ctx == 7) = some (xferOf (some (outERROR, 16))) ∧ s.boundSeq 7 = some 0 ∧
      (xferOf (some (outERROR, 16))).result = some (outERROR, 16) ∧ (s.seq 0).wait = .none) ∧
    (let retired (s : State) : State :=
       let s1 : State := { s with work := { s.work with xfers := [] } }
       let s2 := s1.setCtxField 7 0x14 1 (s.ctxXcnt 7 - 1)
       (s2.setCtxField 7 0x10 4 (outERROR.toNat * 2 ^ 24 + 16 % 2 ^ 24)).irq 0 9
     (let s := waitingFor (.waitt 0 1) 2
      s.boundSeq 7 = some 0 ∧ (s.seq 0).wait = .waitt 0 1 ∧ 0 < (retired s).ctxXcnt 7) ∧
     (let s := waitingFor (.waitt 0 1) 1
      s.boundSeq 7 = some 0 ∧ (s.seq 0).wait = .waitt 0 1 ∧ (retired s).ctxXcnt 7 ≤ 0 ∧ (s.seq 0).bound = false ∧ (s.seq 0).issues = true)) := by
  decide +kernel

def shadowed (n : Nat) : Shadow := { b := runRegs.b, a := runRegs.a, st := 0, pc := 0x104, count := n }

theorem hyp_RunAheadIsSpeculative : (let s := withQ s0 fun x => { x with wait := .waitt 0 0 }
     Issuing s 0 ∧ (s.seq 0).bound = false ∧ (s.seq 0).ra.en = true ∧ (s.seq 0).ra.maxl ≠ 0 ∧ (s.seq 0).ra.shadow = none ∧ s.raWaits 0 = true) ∧
    (let s := withQ s0 fun x => { x with wait := .waitt 0 0, ra := { x.ra with shadow := some (shadowed 254) } }
     (s.seq 0).ra.shadow = some (shadowed 254) ∧ Issuing s 0 ∧ (s.seq 0).bound = false ∧ s.raWaits 0 = true ∧ (s.seq 0).pool = none ∧
      (shadowed 254).count < 255 ∧ ¬(shadowed 255).count < 255 ∧ (s.shadowRead 0 ((shadowed 254).regs (s.regs 0)) 0 0x104 4 .exec).isSome = true) ∧
    (let s := s0.modGal 0 fun x => { x with lines := x.lines.set 15 { busy := true, age := 2 } }
     s.logicOn 0 = true ∧ ((s.gal 0).lines[15]).busy = true ∧ ((s.gal 0).lines[15]).chunk = false ∧ ((s.gal 0).lines[15]).bound = none ∧
      (s.seq ((s.gal 0).lines[15]).seq).ra.age.toNat ≤ ((s.gal 0).lines[15]).age) := by unfold Issuing; decide +kernel

/-- Wd = W1 holds a control word, and context 7 has, or has not, session 1. -/
def digesting (wd : Word) (x : Option Session) : State :=
  let s := runs (runRegs.setW 1 wd)
  match x with
  | none => s
  | some x => { s with dg := { s.dg with ses := s.dg.ses.set 1 x } }
def session : Session := { opened := true, ctx := 7, alg := 1, started := true, h := List.replicate 32 0 }

theorem hyp_DigestOperationsBegin :
    ([(0x202 : Word), 0x003, 0x004].all fun w => canRun 0 (dgstTouch strm true true) (digesting w (some session)) &&
      canRun 0 (dgstTouch strm true false) (digesting w (some session))) = true ∧
    ([(0x101 : Word), 0x006].all fun w => canRun 0 (dgstTouch strm false false) (digesting w (some session)) &&
      canRun 0 (dgstTouch strm false false) (digesting w none)) = true ∧
    (digesting 6 (some session)).dg.holder ≠ some 1 ∧ (digesting 6 (some session)).sessionOf 7 = some 1 ∧
    (digesting 6 none).sessionOf 7 = none ∧
    canRun 0 (dgstTouch strm true false) (digesting 5 none) = true ∧ ((digesting 5 none).regs 0).ctxid ≠ 0xFFFF := by
  decide +kernel

theorem hyp_DigestOperationsBegin_words :
    ControlWord 0x101 1 ∧ ControlWord 0x202 2 ∧ ControlWord 3 3 ∧ ControlWord 4 4 ∧ ControlWord 5 5 ∧ ControlWord 6 6 ∧
    bit (0x101 : Word) 12 = false ∧ (digesting 0x101 none).sesFree ≠ [] ∧ session.err = 0 ∧ session.buf.length % session.block = 0 ∧
    session.hmac = false ∧ session.started = true ∧ session.buf.length < session.block := by unfold ControlWord; decide +kernel

theorem hyp_DigestOperationsBegin_operand : (fetched 0 (digesting 2 (some session))).dg = (digesting 2 (some session)).dg ∧
    (∃ a, (fetched 0 (digesting 2 (some session))).streamCheck 0 1 .any 0 32 .swrite = .ok a ∧
      (fetched 0 (digesting 2 (some session))).memReach 0 a 32 = .ok (fetched 0 (digesting 2 (some session))) ()) ∧
    (∃ a, (fetched 0 (digesting 4 (some session))).streamCheck 0 1 .any 0 256 .swrite = .ok a ∧
      (fetched 0 (digesting 4 (some session))).memReach 0 a 256 = .ok (fetched 0 (digesting 4 (some session))) () ∧
      ∃ b u, (fetched 0 (digesting 4 (some session))).memWrite 0 a session.image = .ok b u) ∧
    (∃ a, (fetched 0 (digesting 3 (some session))).streamCheck 0 1 .any 0 32 .sread = .ok a ∧
      ∃ b bs, (fetched 0 (digesting 3 (some session))).memRead 0 a 32 = .ok b bs) := by
  refine ⟨rfl, ⟨_, rfl, rfl⟩, ⟨_, rfl, rfl, ok_of_gives ?_⟩, ⟨_, rfl, ok_of_gives ?_⟩⟩ <;> decide +kernel

set_option maxRecDepth 10000 in
/-- LOAD of an image that is not one, and of the image of a session. -/
theorem hyp_DigestOperationsBegin_load :
    (∃ a, (fetched 0 (digesting 5 none)).streamCheck 0 1 .any 0 256 .sread = .ok a ∧
      ∃ b bs, (fetched 0 (digesting 5 none)).memRead 0 a 256 = .ok b bs ∧ (Session.ofImage bs 7).isNone = true) ∧
    (let s := { digesting 5 none with mem := Memory.writeBytes [] (scratchAddr 0 0x10000) session.image }
     ∃ b bs, (fetched 0 s).memRead 0 (scratchAddr 0 0x10000) 256 = .ok b bs ∧ ((Session.ofImage bs 7).any fun y => !y.hmac) = true) := by
  refine ⟨⟨_, rfl, ok_of_givesSome (f := fun _ bs => (Session.ofImage bs 7).isNone) ?_⟩,
    ok_of_givesSome (f := fun _ bs => (Session.ofImage bs 7).any fun y => !y.hmac) ?_⟩ <;> decide +kernel

/-- The same in program mode, with every session taken, with the scratch of the gallery asleep, and with its banks asleep. -/
def inProgram (s : State) : State := s.modSeq 0 fun x => { x with regs := { x.regs with st := 0 } }
def allTaken (s : State) : State := { s with dg := { s.dg with ses := Vector.replicate 256 { opened := true, ctx := 1 } } }
def sleeping (s : State) : State := s.modGal 0 fun x => { x with awake := 1 }

/-- An access waits for its bank. -/
def waitsFor {α : Type} (x : Acc α) (f : State → Bool) : Bool := match x with | .wait s => f s | _ => false

/-- DGST.OPEN: a key that may not be named, a context with a session, none free; DGST.ABORT of the session in the engine. -/
theorem hyp_DigestOperationsBegin_open : ControlWord 0x1101 1 ∧ bit (0x1101 : Word) 12 = true ∧
    (let s := inProgram (digesting 0x1101 none)
     canRun 0 (dgstTouch strm false false) s = true ∧ (s.regs 0).priv = false ∧ bit s.dg.mask0 0 = false ∧ s.sessionOf 7 = none) ∧
    (digesting 0x101 (some session)).sessionOf 7 = some 1 ∧
    (let s := allTaken (digesting 0x101 none)
     canRun 0 (dgstTouch strm false false) s = true ∧ s.sessionOf 7 = none ∧ (fetched 0 s).sesFree = []) ∧
    (let s := digesting 6 (some session)
     let s := { s with dg := { s.dg with holder := some 1 } }
     canRun 0 (dgstTouch strm false false) s = true ∧ s.sessionOf 7 = some 1 ∧ s.dg.holder = some 1) := by unfold ControlWord; decide +kernel

/-- FINAL, CHECK and SAVE of a session with an error, with a partial block, of a keyed session in program mode, of one in the engine,
and with a bank asleep. -/
theorem hyp_DigestOperationsBegin_ends :
    (let x := { session with err := dgPORT }
     canRun 0 (dgstTouch strm true true) (digesting 3 (some x)) = true ∧ (digesting 3 (some x)).sessionOf 7 = some 1 ∧ x.err ≠ 0) ∧
    (let x := { session with buf := [1] }
     canRun 0 (dgstTouch strm true true) (digesting 3 (some x)) = true ∧ (digesting 3 (some x)).sessionOf 7 = some 1 ∧ x.err = 0 ∧
      x.buf.length % x.block ≠ 0) ∧
    (let x := { session with hmac := true }
     let s := inProgram (digesting 4 (some x))
     canRun 0 (dgstTouch strm true false) s = true ∧ s.sessionOf 7 = some 1 ∧ x.hmac = true ∧ (s.regs 0).priv = false) ∧
    (let s := digesting 4 (some session)
     let s := { s with dg := { s.dg with holder := some 1 } }
     canRun 0 (dgstTouch strm true false) s = true ∧ s.dg.holder = some 1) ∧
    (let s := fetched 0 (sleeping (digesting 2 (some session)))
     waitsFor (s.memReach 0 (scratchAddr 0 0x10000) 32) (fun _ => true) = true ∧
      s.streamCheck 0 1 .any 0 32 .swrite = .ok (scratchAddr 0 0x10000) ∧
      s.streamCheck 0 1 .any 0 256 .swrite = .ok (scratchAddr 0 0x10000) ∧
      waitsFor (s.memReach 0 (scratchAddr 0 0x10000) 256) (fun _ => true) = true ∧
      s.streamCheck 0 1 .any 0 32 .sread = .ok (scratchAddr 0 0x10000) ∧
      waitsFor (s.memRead 0 (scratchAddr 0 0x10000) 32) (fun _ => true) = true) ∧
    Desc.window ((digesting 2 (some session)).regs 0 |>.seg 3) = true ∧ Desc.window ((digesting 2 (some session)).regs 0 |>.seg 1) = false := by
  decide +kernel

set_option maxRecDepth 10000 in
/-- LOAD of a keyed image in program mode, and with no session free. -/
theorem hyp_DigestOperationsBegin_images :
    (let s := inProgram { digesting 5 none with mem := Memory.writeBytes [] (scratchAddr 0 0x10000) ({ session with hmac := true } : Session).image }
     canRun 0 (dgstTouch strm true false) s = true ∧ (s.regs 0).priv = false ∧
     givesSome ((fetched 0 s).memRead 0 (scratchAddr 0 0x10000) 256) (fun b bs =>
       decide (b.dg = (fetched 0 s).dg) && (Session.ofImage bs 7).any fun y => y.hmac) = true) ∧
    (let s := allTaken { digesting 5 none with mem := Memory.writeBytes [] (scratchAddr 0 0x10000) session.image }
     canRun 0 (dgstTouch strm true false) s = true ∧ s.sessionOf 7 = none ∧ (fetched 0 s).sesFree = [] ∧
     givesSome ((fetched 0 s).memRead 0 (scratchAddr 0 0x10000) 256) (fun _ bs => (Session.ofImage bs 7).any fun y => !y.hmac) = true) := by
  decide +kernel

/-- Session 1 of Q0, which waits for its CHECK. -/
def checking (f : Dg → Dg) : State :=
  let s := withQ (digesting 3 (some { session with user := some 0 })) fun x => { x with wait := .digest .check strm }
  { s with dg := f s.dg }

theorem hyp_DigestTransactionsEnd : (let s := checking fun d => { d with waiting := [1] }
     s.dg.txn = none ∧ s.dg.cmpWait = none ∧ s.dg.holder = none ∧ s.dg.waiting.head? = some 1 ∧ s.dgWork 1 ≠ none) ∧
    (let s := { digesting 3 (some session) with dg := { (digesting 3 (some session)).dg with txn := some (.block, 1) } }
     s.dg.txn = some (.block, 1) ∧ (s.dg.ses[1]).opened = true ∧ (s.dg.ses[1]).user = none ∧ (s.dg.ses[1]).err = 0) ∧
    (let s := checking fun d => { d with cmpWait := some 1 }
     s.dg.cmpWait = some 1 ∧ s.dg.txn = none ∧ (s.dg.ses[1]).user = some 0 ∧ (s.seq 0).wait = .digest .check strm) ∧
    ({ eq := true, eqn := false } : CmpPair).eq = (!({ eq := true, eqn := false } : CmpPair).eqn) := by decide +kernel

/-- The digest port runs a transaction of session 1, whose sequencer waits for this operation. -/
def transacting (x : DgTxn) (op : Option DgOp) : State :=
  let s := digesting 3 (some { session with user := op.map fun _ => 0 })
  let s := withQ s fun y => { y with wait := match op with | none => .none | some o => .digest o strm }
  { s with dg := { s.dg with txn := some (x, 1) } }

/-- A yield to the session that waits, one of the MP's before a context's, and each transaction's end. -/
theorem hyp_DigestTransactionsEnd_kinds : (let s := checking fun d => { d with waiting := [1], holder := some 2, ses := d.ses.set 2 session }
     s.dg.txn = none ∧ s.dg.cmpWait = none ∧ s.dg.holder = some 2 ∧ (s.dg.waiting.filter (· ≠ 2)).head? = some 1 ∧ (s.dg.ses[2]).opened = true ∧
      (s.dg.ses[2]).started = true ∧ (s.dg.ses[2]).err = 0) ∧
    (let s := checking fun d => { d with waiting := [1, 252], ses := d.ses.set 252 { session with buf := List.replicate 64 0 } }
     s.dg.holder = none ∧ s.dg.waiting.find? (fun k => decide (252 ≤ k.val)) = some 252 ∧ s.dgWork 252 ≠ none) ∧
    (∀ k ∈ [DgTxn.init, .restore], let s := transacting k none
     s.dg.txn = some (k, 1) ∧ (s.dg.ses[1]).opened = true ∧ (s.dg.ses[1]).user = none ∧ (s.dg.ses[1]).err = 0) ∧
    (let s := transacting .readout none
     let s := { s with dg := { s.dg with waiting := [1, 252], ses := s.dg.ses.set 252 { session with buf := List.replicate 64 0 } } }
     s.dg.txn = some (.readout, 1) ∧ s.sesOp 1 = none ∧
      (s.dg.waiting.filter fun k => (some 1 : Option (Fin 256)) ≠ some k).find? (fun k => decide (252 ≤ k.val)) = some 252 ∧ s.dgWork 252 ≠ none) ∧
    (let s := transacting .readout (some .save)
     s.sesOp 1 = some (0, .save, strm) ∧ (s.dg.ses[1]).buf.length < (s.dg.ses[1]).block ∧ Desc.window ((s.regs 0).seg 1) = false ∧
      (s.regs 0).check 1 0 256 .swrite = .ok (scratchAddr 0 0x10000) ∧
      gives (s.memWrite 0 (scratchAddr 0 0x10000) ({ s.dg.ses[1] with h := (leBytes 64 0).take 32 } : Session).image) = true) ∧
    (let s := transacting .finish (some .final)
     s.sesOp 1 = some (0, .final, strm) ∧ (s.regs 0).check 1 0 ((leBytes 64 0).take 32).length .swrite = .ok (scratchAddr 0 0x10000) ∧
      gives (s.memWrite 0 (scratchAddr 0 0x10000) ((leBytes 64 0).take 32)) = true) ∧
    (transacting .fincmp (some .check)).dg.txn = some (.fincmp, 1) ∧ (transacting .abort (some .abort)).sesOp 1 = some (0, .abort, strm) ∧
    ({ eq := true, eqn := true } : CmpPair).eq = ({ eq := true, eqn := true } : CmpPair).eqn := by decide +kernel

/-! ### Hypotheses: pairs, boundaries, limits -/

/-- A word of format 1 that Q0 can run. -/
def pairRuns (w : Word) : Bool :=
  bit w 31 && canRun 0 ((shortOf (w.extractLsb' 16 15)).touch.or (shortOf (w.extractLsb' 1 15)).touch) s0

theorem hyp_PairsRunBothSlots : pairRuns 0xFC000000 = true ∧ pairRuns 0x80000001 = true ∧ pairRuns 0x8C86190C = true ∧
    pairRuns 0x8C861246 = true := by decide +kernel

/-- Its cases, by the two slots: a reserved code, the tail bit, a byte that both write, a legal word. -/
theorem hyp_PairsRunBothSlots_cases : (shortOf 0x7C00).code = 0x1F ∧ (0xFC000000 : Word).extractLsb' 16 15 = 0x7C00 ∧
    bit (0x80000001 : Word) 0 = true ∧ (shortOf 0).code ≠ 0x1F ∧ (0x8C86190C : Word).extractLsb' 16 15 = 0x0C86 ∧
    (0x8C86190C : Word).extractLsb' 1 15 = 0x0C86 ∧ bit (shortOf 0x0C86).writes 4 = true ∧
    (shortOf 0x0C86).writes &&& (shortOf 0x0923).writes = 0 := by decide +kernel

/-- Q0 with a cause of BOUND pending. -/
def caused (f : Seq → Seq) : State := withQ p0 f

/-- Q0 comes to the boundary at which this cause is served, and what is in flight sets no trap, or does. -/
def comes (s : State) (c : Cause) (quiet : Bool) : Bool :=
  (s.toBoundary 0 c.words).any fun b => ((b.landAll 0).seq 0).fptd != quiet

/-- A floating-point operation is in flight whose flag is enabled: landing it sets the trap (R231, R232). -/
def trapping (x : Seq) : Seq := { x with
  regs := { x.regs with fpc := 0x1F00 }
  pool := some { result := 1, dest := none, stMask := 0, stVal := 0, fp := true, flags := 1, divz := none, pc := 0x100 } }

def trapSet (x : Seq) : Seq := { x with regs := { x.regs with st := 0x2000 } }
def lockExpired (x : Seq) : Seq := { x with
  dhalt := true, lock := some (scratchAddr 0 0x20000), dbg := { x.dbg with defer := true, defcnt := 64 } }
def overBudget (x : Seq) : Seq := { x with bud := { x.bud with budx := true } }
def irqRaised (x : Seq) : Seq := { x with exc := { x.exc with irqpend := 0x0101, irqlvl0 := 0x00000001, irqlvl1 := 0x00000001 } }

theorem hyp_BoundaryCausesServed :
    (let s := caused trapSet
     (s.toBoundary 0 Cause.fptd.words).isSome = true ∧ (s.seq 0).fptd = true) ∧
    (let s := caused fun x => { x with unbind := some .close }
     comes s .unbind true = true ∧ (s.seq 0).fptd = false ∧ (s.seq 0).unbind.isSome = true) ∧
    comes (caused fun x => { trapping x with unbind := some .close }) .unbind false = true ∧
    (let s := caused fun x => { x with dhalt := true }
     comes s .dhalt true = true ∧ (s.seq 0).fptd = false ∧ (s.seq 0).unbind = none ∧ (s.seq 0).haltNow = true) ∧
    comes (caused fun x => { trapping x with dhalt := true }) .dhalt false = true ∧
    (let s := caused lockExpired
     comes s .dhalt true = true ∧ (s.seq 0).haltNow = true ∧ (s.seq 0).dbg.defer = true ∧ (s.seq 0).lock.isSome = true ∧
      64 ≤ (s.seq 0).dbg.defcnt.toNat) ∧
    (let s := caused overBudget
     comes s .budx true = true ∧ (s.seq 0).haltNow = false ∧ (s.seq 0).stepping = false ∧ (s.seq 0).bud.budx = true ∧
      (s.seq 0).quantumUp = false) ∧
    comes (caused fun x => trapping (overBudget x)) .budx false = true ∧
    (let s := caused irqRaised
     (s.toBoundary 0 Cause.irq.words).isSome = true ∧ (s.seq 0).bud.budx = false ∧ (s.seq 0).irqNow = true) ∧
    (let s := caused fun x => { x with ticks := true }
     comes s .ticks true = true ∧ (s.seq 0).irqNow = false ∧ (s.seq 0).ticks = true ∧ (s.seq 0).prefetch = none) := by
  decide +kernel

theorem hyp_LimitsAndLatchedEntries : s0.alive 0 = true ∧
    ((withQ s0 fun x => { x with running := some anItem }).seq 0).run = .active ∧ (s0.seq 0).dbg.halted = false ∧
    511 ≤ ((withQ s0 fun x => { x with bud := { x.bud with tdebt := 511 } }).seq 0).bud.tdebt ∧
    ((withQ s0 fun x => { x with exc := { x.exc with wdcount := 0 } }).seq 0).exc.wdcount = 0 ∧ (s0.seq 0).run ≠ .mfault ∧ (s0.seq 0).run ≠ .stopped ∧
    ((withQ s0 fun x => { x with wait := .retry }).seq 0).issues = true ∧ ((withQ s0 fun x => { x with wait := .retry }).seq 0).wait = .retry ∧
    ((withQ s0 fun x => { x with mic := { x.mic with vec := some 8 } }).seq 0).mic.vec = some 8 ∧
    (let s := withQ s0 fun x => { x with regs := { x.regs with pc := 0x1000 } }
     s.ready 0 = true ∧ (match s.fetchAt 0 with | .exn _ e => e.cause == 0x30 | _ => false) = true) ∧
    (let s := withQ s0 fun x => { x with running := some anItem, prefetch := some { anItem with ctx := 8 } }
     (s.seq 0).running = some anItem ∧ (s.seq 0).prefetch.isSome = true ∧ (s.gal (galOf 0)).quantum.toNat ≤ anItem.ticks) := by decide +kernel

theorem hyp_LimitsAndLatchedEntries_spends : (s0.seq 0).spends = true ∧
    ((withQ s0 fun x => { x with bud := { x.bud with budx := true, cdebt := 256 } }).seq 0).bud.stuck = true ∧
    (let x := (withQ s0 fun x => { x with bud := { x.bud with budx := true }, wait := .halt }).seq 0
     x.bud.budx = true ∧ x.wait ≠ .none ∧ x.regs.ctxid ≠ 0xFFFF) := by decide +kernel

/-! ### Hypotheses: ticks, the ledger, galleries, banks, work -/

/-- Serving: ticks run, the galleries serve, the firmware is up. -/
def serving (st : EngState) : State :=
  let s := { s0 with
    eng := { s0.eng with state := st, ready := true }, plant := { s0.plant with tickOn := true }, mp := { s0.mp with up := true } }
  s.modGal 0 fun x => { x with gstate := .serving }

theorem hyp_TicksStart : (serving .start).plant.tickOn = true ∧
    ({ (serving .start).plant with pendCfg := some 0xC8003E80 } : Plant).pendCfg = some 0xC8003E80 ∧ (serving .start).plant.pendGuard = none ∧
    (serving .start).logicOn 0 = true ∧ ((serving .start).gal 0).tick ≠ some (serving .start).plant.ticknum ∧
    ({ (serving .start).pow with holdcfg := 0x80000000 } : Power).holdcfg = 0x80000000 ∧ (serving .start).pd.active = false ∧
    ((serving .start).gal 0).power = none ∧ ((serving .start).seq 7).prefetch = none ∧ galOf 7 = 0 ∧
    ((serving .start).gal 0).nextTick ≤ (serving .start).plant.ticknum.toNat ∧ (serving .start).work.heldItems = [] ∧
    (serving .start).mp.closing = [] ∧ (serving .start).present 0 = true ∧
    (let s := (serving .start).modGal 0 fun x => { x with tick := some 0, nextTick := 1 }
     (s.gal 0).tick ≠ none ∧ s.plant.ticknum.toNat < (s.gal 0).nextTick ∧ 0 < s.plant.period.toNat) := by decide +kernel

theorem hyp_TickAndPlantRows : 64 ≤ ({ s0.plant with ageD := 64 } : Plant).ageD ∧ bit (0x10000 : Word) 16 = true := by decide +kernel

/-- An armed ledger with a snapshot of these mismatches. -/
def audited (snap : List (Nat × Nat × Word)) : State :=
  { serving .service with ledger := { haveSnap := true, armed := true, maint := false, recount := false, snap := snap } }

theorem hyp_LedgerAuditsAndRearms : (audited []).ledger.haveSnap = true ∧ (audited []).ledger.armed = true ∧ (audited []).ledger.maint = false ∧
    (audited []).ledger.recount = false ∧ (audited []).ledger.storeUe = false ∧ (audited [(8, 0, 1)]).ledger.snap = [(8, 0, 1)] ∧
    (audited [(6, 0xFF, 1)]).ledger.snap = [(6, 0xFF, 1)] ∧ (audited [(6, 0xFF, 1)]).operating = true ∧
    (audited [(9, 63, 1)]).ledger.snap = [(9, (63 : Fin 64).val, 1)] ∧
    ((audited [(8, 0, 1)]).gal 0).gstate = .serving ∧ 4 ≤ (badGalleries [(1, 0, 1), (2, 1, 1), (3, 2, 1), (5, 15, 1)]).length ∧
    State.reset.ledger.recount = true ∧ (serving .start).operating = true ∧
    ({ s0.ledger with sel := 0x00010000 } : Ledger).selected = (1, 0, 0) ∧ s0.present 0 = true := by decide +kernel

/-- A message of a command and payload taken from mailbox 0. -/
def mailed (st : EngState) (code : Nat) (payload : List Byte) : State :=
  let s := serving st
  { s with mb := { s.mb with
      bytes := Memory.writeBytes [] 0 (leBytes 2 code ++ List.replicate 14 0 ++ payload), busy := 1, queue := [0] } }

theorem hyp_GalleriesChangeState : s0.present 0 = true ∧
    (let s := mailed .start 0x0301 [0, 0, 1, 0]
     s.taken 0 0x0301 = true ∧ s.eng.bistDead = false ∧ s.operating = true ∧ s.arg 0 0 1 = 0 ∧ s.arg 0 1 1 = 0 ∧ s.arg 0 2 2 ≠ 0 ∧
      s.galHeld 0 = false ∧ (s.gal 0).gstate = .serving) ∧
    (let s := (mailed .start 0x0302 [0, 0, 0, 0]).modGal 0 fun x => { x with gstate := .squeezed }
     let s := s.each (seqsOf 0) fun s q => s.modSeq q fun x => { x with run := .stopped, cs := { x.cs with csver := 0x8000000000000000 } }
     s.taken 0 0x0302 = true ∧ s.arg 0 1 3 = 0 ∧ s.galHeld 0 = false ∧ s.mayRelease 0 = true ∧ (s.seq 0).cs.csver ≠ 0 ∧ (s.seq 0).run = .stopped) ∧
    (let s := mailed .start 0x0303 [0, 0, 0, 0]
     s.taken 0 0x0303 = true ∧ s.arg 0 1 3 = 0 ∧ (s.gal 0).gstate ≠ .fenced ∧ (s.gal 0).gstate ≠ .off ∧ (s.gal 0).gstate ≠ .retained) := by
  decide +kernel

theorem hyp_GalleriesChangeState_power :
    (let s := (mailed .start 0x0304 [0, 0, 0, 0]).modGal 0 fun x => { x with gstate := .squeezed, md := { x.md with waiting := [fetchReq] } }
     s.taken 0 0x0304 = true ∧ s.arg 0 1 1 = 0 ∧ s.arg 0 2 2 = 0 ∧ s.galHeld 0 = false ∧ (s.gal 0).gstate = .squeezed ∧ s.drained 0 = false) ∧
    (let s := (mailed .start 0x0304 [0, 1, 0, 0]).modGal 0 fun x => { x with gstate := .fenced }
     s.taken 0 0x0304 = true ∧ s.arg 0 1 1 = 1 ∧ s.galHeld 0 = false ∧ s.drained 0 = true ∧ bit s.aon.emu 0 = false ∧ (s.gal 0).awake ≠ 0) ∧
    (let s := (mailed .start 0x0304 [0, 2, 0, 0]).modGal 0 fun x => { x with gstate := .off }
     let s := { s with pd := { s.pd with on := 0 } }
     s.taken 0 0x0304 = true ∧ s.arg 0 1 1 = 2 ∧ s.galHeld 0 = false ∧ s.pdOn 1 = false) ∧
    (let s := s0.modGal 0 fun x => { x with gstate := .off, power := some (.raiseScratch, none) }
     let s := { s with pd := { s.pd with on := 0, req := 3 }, eng := { s.eng with state := .start } }
     s.eng.state ≠ .calib ∧ (s.gal 0).power = some (.raiseScratch, none) ∧ bit s.pd.req 1 = true ∧ s.pdOn 1 = false ∧ s.pdOn 0 = false ∧
      s.awaits 0 1 = true ∧ s.pd.closed = false ∧ s.pd.back = none) ∧
    (let s := s0.modGal 0 fun x => { x with gstate := .off, power := some (.lowerLogic false, none) }
     let s := { s with pd := { s.pd with on := 2, req := 2 }, eng := { s.eng with state := .start } }
     s.eng.state ≠ .calib ∧ s.pd.closed = false ∧ s.pd.back = none ∧ bit s.pd.req 0 = false ∧ (s.gal 0).power = some (.lowerLogic false, none) ∧
      s.awaits 0 0 = true) ∧
    (let s := s0.modGal 0 fun x => { x with gstate := .off, power := some (.lowerScratch, some 0) }
     let s := { s with pd := { s.pd with on := 0, req := 0 } }
     bit s.pd.req 1 = false ∧ (s.gal 0).power = some (.lowerScratch, some 0) ∧ s.awaits 0 1 = true) ∧
    ({ s0 with eng := { s0.eng with state := .test } } : State).eng.state = .test ∧
    (let s := s0.modGal 0 fun x => { x with gstate := .off, power := some (.raiseLogic, none) }
     let s := { s with pd := { s.pd with on := 2, req := 3 }, eng := { s.eng with state := .start } }
     (s.gal 0).power = some (.raiseLogic, none) ∧ bit s.pd.req 0 = true ∧ s.pdOn 0 = false ∧ s.awaits 0 0 = true) := by decide +kernel

/-- Context 7 in the table: state, flags, home and save area. -/
def entered (state flags home : Byte) (s : State) : State :=
  { s with mem := Memory.writeBytes s.mem (ctxAddr 7) ([state, flags, home, 0, 0, 0, 0, 0] ++ leBytes 8 0x40000000000) }

theorem hyp_SqueezesMoveContexts : MemOk s0 ∧
    (let s := (withQ (serving .start) fun x => { x with running := some anItem }).modGal 0 fun x => { x with gstate := .squeezing, deadleft := 0 }
     (s.gal 0).gstate = .squeezing ∧ (s.gal 0).deadleft = 0 ∧ s.pd.active = false ∧ (s.seq 0).running.isSome = true ∧ (s.seq 0).unbind = none ∧
      (s.seq 0).dbg.halted = false ∧
      ((withQ s fun x => { x with dbg := { x.dbg with halted := true } }).seq 0).dbg.halted = true) ∧
    (let s := entered 1 4 0 ((serving .start).modGal 5 fun x => { x with gstate := .serving })
     MemOk s ∧ s.mayMove 7 = true ∧ s.ctxFlag 7 2 = true ∧ s.serving 5 = true ∧ s.work.heldItems = [] ∧
      privateSegs (s.mem.readBytes (s.ctxSave 7) 256) (s.ctxHome 7) = []) := by unfold MemOk; decide +kernel

theorem hyp_ScratchBanksServed : (let s := { s0 with ecc := { s0.ecc with wb := [scratchAddr 0 0xF0000] } }
     s.ecc.wb.find? (inBank 0 15) = some (scratchAddr 0 0xF0000)) ∧
    (let s := s0.modGal 0 fun x => { x with ret := 0x8000 }
     s.present 0 = true ∧ bit (s.gal 0).ret 15 = true ∧ bit (s.gal 0).awake 15 = true ∧ s.bankBusy 0 15 = false ∧ (s.gal 0).power = none) ∧
    bit ((s0.modGal 0 fun x => { x with waking := 0x8000 }).gal 0).waking 15 = true ∧ MemOk s0 ∧ s0.pdOn 1 = true ∧ s0.logicOn 0 = true ∧
    (s0.gal 0).owner[15] = 8 ∧ (0 : BitVec 4).toNat ≤ 8 ∧ 8 < (9 : BitVec 4).toNat ∧
    (let s := (withQ s0 fun x => { x with run := .word0 })
     let s := withQ s fun x => { x with store := { x.store with valid := true } }
     s.alive 0 = true ∧ (s.seq 0).run = .word0 ∧ (s.seq 0).store.valid = true ∧ (s.seq 0).dbg.halted = false ∧ (s.seq 0).bud.stuck = false ∧
      (s.seq 0).prefetch = none ∧ ∃ u bs, s.memRead 0 (scratchAddr 0 0) 64 = .ok u bs ∧ (rtBlockOk bs || !rtBlockOk bs) = true) ∧
    rtBlockOk (List.replicate 64 0) = true ∧ rtBlockOk (List.replicate 64 1) = false := by
  unfold MemOk; refine ⟨?_, ?_, ?_, ?_, ?_, ?_, ?_, ?_, ?_, ⟨?_, ?_, ?_, ?_, ?_, ?_, ok_of_givesSome ?_⟩, ?_, ?_⟩ <;> decide +kernel

theorem hyp_WorkEntersAndLeaves : (serving .start).wkReady 0 = true ∧ (serving .start).work.heldItems = [] ∧ wdReserved (2 ^ 255) = true ∧
    wdGal (2 ^ 255) = 0 ∧ wdReserved 7 = false ∧ wdCtx 7 ≠ 0xFFFF ∧ (serving .start).present 0 = true ∧ s0.serving 0 = false ∧
    ({ s0 with eng := { s0.eng with state := .start } } : State).wkReady 0 = true ∧ (serving .start).serving 0 = true ∧
    (let s := entered 1 0 0 (serving .start)
     let s1 := (s.led 0 21 1).ctxTouch (wdCtx 7)
     MemOk s ∧ s1.wdCheck 7 = none ∧ s1.pickSlot 0 = some 0 ∧
      (((withQ s1 fun x => { x with running := some anItem }).seq (seqId 0 0)).running.isSome) = true) ∧
    ({ s0.work with fifo := [{ ctx := 7, status := 0, cause := 0, result := 0, ticks := 0, seq := 0, tokens := 0 }] } : Work).fifo ≠ [] ∧
    (let s := mailed .start 0x0406 [0xFF, 0xFF, 1, 0]
     s.taken 0 0x0406 = true ∧ s.eng.bistDead = false ∧ s.arg 0 0 2 ≠ 0 ∧ s.arg 0 2 2 < 2) := by unfold MemOk; decide +kernel

/-! ### Hypotheses: the router, timers, mailboxes, microcode -/

def routed (f : Router → Router) : State := { s0 with ev := f s0.ev }

theorem hyp_RouterMovesCounts : (s0.ev.ins[63]).lvl ≠ true ∧
    (((routed fun e => { e with ins := e.ins.set 63 { mode := 3, edges := 14 } }).ev.ins[63]).edges < 15) ∧
    (let x : EvIn := { mode := 1, lvl := true, stuckt := 1, active := 1 }
     (x.mode = 1 ∧ x.lvl = true) ∧ x.stuckt ≠ 0 ∧ x.stuckt.toNat ≤ x.active ∧ x.stuck = false) ∧
    (let s := routed fun e => { e with flight := [(9, 3)], chsub := e.chsub.set 9 0x107F0007 }
     s.ev.flight.find? (fun e => e.1 == 9) = some (9, 3) ∧ chType (s.chsub 9) = 1 ∧ chUnit (s.chsub 9) = 127 ∧ s.logicOn (galOf 127) = true) ∧
    chType (0x201F0000 : Word) = 2 ∧ chUnit (0x201F0000 : Word) = 31 ∧ chType (0x303F0000 : Word) = 3 ∧ chUnit (0x303F0000 : Word) = 63 ∧
    chType (0x407F0000 : Word) = 4 ∧ chUnit (0x407F0000 : Word) = 15 * 8 + 7 ∧
    ({ pend := 15 } : EvOut).mode = false ∧ ({ pend := 15 } : EvOut).pend ≠ 0 ∧ s0.chsubRefused 9 0x107F0007 = false ∧
    s0.chsubRefused 9 0x10800000 = true ∧
    15 ≤ (({ mode := 3, edges := 15 } : EvIn).edges) ∧ ({ mode := 3, edges := 15 } : EvIn).ovr = false ∧
    (let s := routed fun e => { e with ins := e.ins.set 63 { mode := 3, ch := 9, edges := 2 } }
     (∀ e ∈ s.ev.flight, e.1 ≠ (s.ev.ins[63]).ch) ∧ (s.ev.ins[63]).edges ≠ 0 ∧
      ∀ k : Fin 64, k < 63 → (s.ev.ins[k]).edges = 0 ∨ (s.ev.ins[k]).ch ≠ (s.ev.ins[63]).ch) ∧
    (({ ctl := 0x80, held := 1 } : Cell).cons = true ∧ bit (0 : Word) 7 = false ∧ ({ ctl := 0x80, held := 1 } : Cell).held ≠ 0) ∧
    (s0.ev.cells[63]).cons = false ∧ (s0.ev.cells[63]).forced = false ∧ (s0.ev.cells[63]).ctl.extractLsb' 0 5 = 0 := by decide +kernel

def timed (f : Timer → Timer) : State := s0.modGal 0 fun x => { x with timers := x.timers.set 7 (f x.timers[7]) }

theorem hyp_TimersCountAndMatch : (let s := timed fun x => { x with hit := true, pub := true, ie := true }
     (s.timer 0 7).hit = true ∧ chType (s.chsub (s.timer 0 7).pubch) = 0 ∧ (s.timer 0 7).ie = true ∧ (s.gal 0).tmrIrq (s.timer 0 7).seq = false) ∧
    (let s := timed fun x => { x with hit := true, pub := true, pubch := 9 }
     let s := { s with ev := { s.ev with chsub := s.ev.chsub.set 9 0x10000007, flight := [(9, 1)] } }
     (s.timer 0 7).pub = true ∧ chType (s.chsub (s.timer 0 7).pubch) ≠ 0 ∧ ∃ e ∈ s.ev.flight, e.1 = (s.timer 0 7).pubch) ∧
    (let x := (timed fun x => { x with count := 7, cmp := 8 }).timer 0 7
     x.hit = false ∧ x.cmpHeld.getD (x.cmp.extractLsb' 32 16) ++ (7 : Word) = x.count ∧
      x.cmpHeld.getD (x.cmp.extractLsb' 32 16) ++ (9 : Word) ≠ x.count) ∧
    s0.present 0 = true ∧ s0.logicOn 0 = true ∧ ((timed fun x => { x with en := true, count := 0xFFFFFFFFFFFF }).timer 0 7).en = true ∧
    (s0.timer 0 7).hit = false ∧ (s0.timer 0 7).en = false ∧ (serving .service).eng.state = .service ∧ (serving .start).eng.state = .start ∧
    Variant.it8.aotmr = true := by decide +kernel

/-- ENG_INFO, with the CHK of R314, waits in an idle mailbox 63. -/
def asked : State :=
  let s := serving .start
  let bs := Memory.writeBytes [] (63 * 256) [0x01, 0x01, 0, 0, 0, 0]
  let s := { s with mb := { s.mb with bytes := bs } }
  { s with mb := { s.mb with bytes := bs.writeBytes (63 * 256 + 14) (leBytes 2 (s.mbChk 63 0 0).toNat) } }

theorem hyp_MailboxesAndAccesses : bit ({ s0.mb with busy := 0x8000000000000000 } : Mb).busy 63 = true ∧ bit asked.mb.busy 63 = false ∧
    s0.eng.ready = false ∧ asked.eng.ready = true ∧ asked.eng.mpbusy = false ∧ asked.msgFault 63 = none ∧
    (let s := { asked with mb := { asked.mb with bytes := [] } }
     s.msgFault 63 = some mbBADCHK) ∧
    (let s := { asked with mb := { asked.mb with queue := [5, 63], bytes := [] } }
     (s.mb.queue.filter (· ≠ 5)).head? = some 63 ∧ s.msgFault 63 = some mbBADCHK ∧ MemOk s) ∧
    (let s := { asked with mb := { asked.mb with queue := [5, 63] } }
     (s.mb.queue.filter (· ≠ 5)).head? = some 63 ∧ s.msgFault 63 = none) ∧
    (let s := withQ s0 fun x => { x with dbg := { x.dbg with halted := true } }
     s.alive 0 = true ∧ (s.seq 0).dbg.halted = true ∧ (s.seq 0).prefetch = none) ∧
    (let x := (withQ s0 fun x => { x with dhalt := true, dbg := { x.dbg with defer := true } }).seq 0
     x.dbg.halted = false ∧ x.dhalt = true ∧ x.dbg.defer = true) ∧
    MemOk asked ∧ (0x1FFFFC : BitVec 21).toNat % 4 = 0 ∧ s0.spot s0.eng.win 0x1FFFFC = .unmapped ∧
    (match s0.spot s0.eng.win 0x8000 with | .reg _ => true | _ => false) = true ∧ asked.spot asked.eng.win (63 * 256 + 0x7C) = .mailbox 63 0x7C ∧
    (0x1FFFFF : BitVec 21).toNat % 4 ≠ 0 ∧ s0.alive 0 = true ∧ ((withQ s0 fun x => { x with cs := { x.cs with mf := true } }).seq 0).cs.mf = true ∧
    (s0.seq 0).dbg.halted = false ∧ (s0.seq 0).dhalt = false ∧ (s0.seq 0).prefetch = none ∧
    ({ s0.eng with mpbusy := true } : Eng).mpbusy = true := by unfold MemOk; decide +kernel

/-- Q0 issues this microword, which its control store holds at address n. -/
def holding (w : MicroWord) (n : BitVec 12) (f : Seq → Seq) : State := withQ s0 fun x =>
  f { x with mic := { x.mic with next := n }, store := { x.store with overW := [(n.toNat, w)] } }

/-- Half ADD into temporary 0 (DST 0x28) with NAC n: every other field 0 but the class CTRL. -/
def addWord (n : Nat) : MicroWord := BitVec.ofNat 192 (n * 2 ^ 188 + 0x12 * 2 ^ 162 + 0x28 * 2 ^ 144 + 2 ^ 31)

/-- What holds of the queue's fetch of one microcycle, whatever the fetch takes ahead (log 98). -/
theorem fetch_any {P : State → Prop} {s : State} {q : SeqId}
    (h : ∀ c : Bool, P (if c then (s.fetchHead q).fetchNext q else s.fetchHead q).fresh) : P (s.fetchCycle q) := h _

/-- The next word is no repeat of a dispatch, its codeword is good and nothing holds it. -/
def wordGoes (b : State) : Bool :=
  let x := b.seq 0
  let w := x.store.word x.mic.next.toNat
  !x.mic.disp && !x.store.ue.contains x.mic.next.toNat && !x.store.ce.contains x.mic.next.toNat && !namesMemd w &&
    (b.microHold 0 w (x.result w (x.operand 0 w (mwAsrc w)) (x.operand 0 w (mwBsrc w))).val).isNone
def wordBreaksARule (b : State) : Bool :=
  let x := b.seq 0
  let w := x.store.word x.mic.next.toNat
  (b.wordFault 0 x.mic.next w (b.condOf 0 w)).isSome
/-- It is a word that only adds into temporary 0. -/
def wordAdds (b : State) : Bool :=
  let w := (b.seq 0).store.word (b.seq 0).mic.next.toNat
  !mwBrk w && mwNac w == 0 && mwDst w == 0x28 && (mwAluop w).toNat == 0x12 && mwShf w == 0 && mwMem w == 0 && mwMul w == 0 && mwPool w == 0 &&
    mwStrm w == 0 && mwMprt w == 0 && mwSeg w == 0 && mwEvt w == 0 && mwFlg w == 0 && mwCnt w == 0 && mwDec w == 0 && mwExct w == 0 &&
    (b.seq 0).dbg.steps == 0
def wordHolds (b : State) : Bool :=
  let x := b.seq 0
  let w := x.store.word x.mic.next.toNat
  !x.mic.disp && (b.microHold 0 w (x.result w (x.operand 0 w (mwAsrc w)) (x.operand 0 w (mwBsrc w))).val).isSome
def wordBreaks (b : State) : Bool :=
  let x := b.seq 0
  !x.mic.disp && !x.store.ue.contains x.mic.next.toNat && mwBrk (x.store.word x.mic.next.toNat) && x.dbg.ubrken && !x.dbg.ubSkip

theorem hyp_MicrowordsIssue : let s := holding (addWord 0) 0x410 id
    s.microReady 0 = true ∧ (wordGoes (s.fetchCycle 0) && wordAdds (s.fetchCycle 0) && !wordBreaksARule (s.fetchCycle 0)) = true :=
  ⟨by decide +kernel, fetch_any (P := fun b => (wordGoes b && wordAdds b && !wordBreaksARule b) = true) (by decide +kernel)⟩

theorem hyp_MicrowordsIssue_fault : let s := holding (addWord 0) 0xFFF id
    s.microReady 0 = true ∧ (wordGoes (s.fetchCycle 0) && wordBreaksARule (s.fetchCycle 0)) = true :=
  ⟨by decide +kernel, fetch_any (P := fun b => (wordGoes b && wordBreaksARule b) = true) (by decide +kernel)⟩

theorem hyp_MicrowordsIssue_unreadable : let s := holding (addWord 0) 0x410 fun x => { x with store := { x.store with ue := [0x410] } }
    s.microReady 0 = true ∧ ((s.fetchCycle 0).seq 0).store.ue.contains 0x410 = true :=
  ⟨by decide +kernel, fetch_any (P := fun b => (b.seq 0).store.ue.contains 0x410 = true) (by decide +kernel)⟩

/-- A microbreak, and a word with MEMD.WAIT while a read is out. -/
theorem hyp_MicrowordsIssue_break :
    let s := holding (addWord 0 ||| BitVec.ofNat 192 (2 ^ 8)) 0x410 fun x => { x with dbg := { x.dbg with ubrken := true } }
    s.microReady 0 = true ∧ wordBreaks (s.fetchCycle 0) = true :=
  ⟨by decide +kernel, fetch_any (P := fun b => wordBreaks b = true) (by decide +kernel)⟩

/-- EXCT 0x19 holds while a product is in flight. -/
theorem hyp_MicrowordsIssue_hold :
    let s := holding (addWord 0 ||| BitVec.ofNat 192 (0x19 * 2 ^ 13)) 0x410 fun x => { x with prods := [{ value := 1, acc := false }] }
    s.microReady 0 = true ∧ wordHolds (s.fetchCycle 0) = true :=
  ⟨by decide +kernel, fetch_any (P := fun b => wordHolds b = true) (by decide +kernel)⟩

/-- A fabric request waits: a read, or a write, of scratch or of an address that answers an error or RETRY. -/
def asking (a : Nat) (data : Option (List Byte)) : State := withQ s0 fun x => { x with
  mic := { x.mic with fab := some { addr := a, size := 1, data := data, seg := 1, off := 0 } } }

theorem hyp_MicrowordsIssue_fabric : ∀ d ∈ [none, some [(1 : Byte)]],
    let ans (s : State) (a : Nat) : Nat := match d with
      | none => match s.memRead 0 a 1 with | .ok _ _ => 0 | .bus _ c => c.toNat | .wait _ => 1 | .retry => 2
      | some bs => match s.memWrite 0 a bs with | .ok _ _ => 0 | .bus _ c => c.toNat | .wait _ => 1 | .retry => 2
    (asking 0 d).alive 0 = true ∧ ((asking 0 d).seq 0).mic.fab.isSome = true ∧ ans (asking (scratchAddr 0 0x10000) d) (scratchAddr 0 0x10000) = 0 ∧
      ans (asking (scratchAddr 5 0) d) (scratchAddr 5 0) = 2 ∧ ans (asking 0 d) 0 = 0x21 := by decide +kernel

theorem hyp_MicrowordsIssue_rest : (let p : ReadPend := { value := 1, poisoned := false, seg := 0, off := 0 }
     let s := withQ s0 fun x => { x with mic := { x.mic with reads := [p] } }
     s.alive 0 = true ∧ (s.seq 0).mic.reads = p :: []) ∧
    (∃ u v, s0.memRead 0 (scratchAddr 0 0x10000) 4 = .ok u v) ∧ (∃ u v, s0.memWrite 0 (scratchAddr 0 0x10000) [1] = .ok u v) ∧
    (match s0.memWrite 0 (scratchAddr 5 0) [1] with | .retry => true | _ => false) = true ∧
    (let s := { serving .start with mp := { (serving .start).mp with scrubOwed := [(0, false, 0xFFF), (0, true, 0x3FF)] } }
     s.scrubOwes 0 false 0xFFF = true ∧ s.scrubOwes 0 true 0x3FF = true ∧ (s.seq 0).store.ue.contains 0xFFF = false ∧
      (s.seq 0).store.mue.contains 0x3FF = false ∧
      ((withQ s fun x => { x with store := { x.store with ue := [0xFFF] } }).seq 0).store.ue.contains 0xFFF = true) := by
  refine ⟨?_, ok_of_gives ?_, ok_of_gives ?_, ?_, ?_⟩ <;> decide +kernel

/-! ### Hypotheses: commands by mailbox -/

/-- An image of KIND kind in buffer memory, HASH 1, slot b, no payload, IMGVER 1. -/
def header (kind b : Byte) : List Byte := leBytes 4 0x49544D49 ++ [1, kind, 1, b, 1, 0, 0, 0] ++ List.replicate 16 0 ++ [32]
def imaged (code : Nat) (kind b : Byte) : State :=
  let s := mailed .start code (leBytes 8 0x4000000000000 ++ leBytes 4 96 ++ [0, 0, 0, 0])
  { s with mem := Memory.writeBytes [] 0x4000000000000 (header kind b) }

/-- The premises of a staging command on its message, and on its image in buffer memory m. -/
def asksStaging (code : Nat) (s : State) : Bool :=
  s.taken 0 code && inBuffer (s.arg 0 0 8) (s.arg 0 8 4) && !s.inStaging (s.arg 0 0 8) (s.arg 0 8 4) && decide (64 ≤ s.arg 0 8 4) &&
    s.arg 0 12 4 == 0 && s.mp.commits.isEmpty && s.arg 0 0 8 == 0x4000000000000 && s.arg 0 8 4 == 96
def imageFits (kinds : List Nat) (slot : Byte) (m : Memory) : Bool :=
  let s : State := { mem := m }
  !s.imgBad 0x4000000000000 kinds && 96 == 64 + s.img 0x4000000000000 0x14 4 + s.img 0x4000000000000 0x1C 1 &&
    BitVec.ofNat 8 (s.img 0x4000000000000 0x07 1) == slot

theorem hyp_EngineAndFirmwareCommands_staging : asksStaging 0x0201 (imaged 0x0201 1 0) = true ∧ asksStaging 0x0204 (imaged 0x0204 4 0) = true ∧
    imageFits [1, 2] 0 (imaged 0x0201 1 0).mem = true ∧ imageFits [3, 4] 0 (imaged 0x0204 4 0).mem = true ∧
    (imaged 0x0205 5 0).mp.bank = false ∧ decide ((imaged 0x0207 6 0).img 0x4000000000000 0x14 4 ≤ 65536) = true := by decide +kernel

/-- A firmware image, or a patch set, that names the key store's slot, whatever number that is. -/
def slotted (code : Nat) (kind b : Byte) : State :=
  let s := imaged code kind 0
  { s with
    mem := (header kind b).zipIdx.map fun e => (0x4000000000000 + e.2, e.1)
    mp := { s.mp with fwver := 0 } }

def slottedOk (code : Nat) (kind b : Byte) : Bool :=
  let s := slotted code kind b
  asksStaging code s && !s.imgBad 0x4000000000000 [kind.toNat] && decide (96 = 64 + s.img 0x4000000000000 0x14 4 + s.img 0x4000000000000 0x1C 1) &&
    (s.imgPart 0x4000000000000).bindver == s.mp.fwver && decide (s.img 0x4000000000000 0x14 4 ≤ 65536)

theorem hyp_EngineAndFirmwareCommands_slot :
    (slottedOk 0x0205 5 Config.aferSlot = true ∧ ((slotted 0x0205 5 Config.aferSlot).imgPart 0x4000000000000).slot = Config.aferSlot) ∧
    (slottedOk 0x0207 6 Config.aferSlot = true ∧ ((slotted 0x0207 6 Config.aferSlot).imgPart 0x4000000000000).slot = Config.aferSlot) := by
  have h : ∀ (c : Nat) (k b : Byte), (slotted c k b).img 0x4000000000000 0x07 1 = b.toNat := fun _ _ _ => rfl
  have k5 : ∀ b : Byte, slottedOk 0x0205 5 b = slottedOk 0x0205 5 0 := fun _ => rfl
  have k6 : ∀ b : Byte, slottedOk 0x0207 6 b = slottedOk 0x0207 6 0 := fun _ => rfl
  refine ⟨⟨(k5 _).trans (by decide +kernel), ?_⟩, ⟨(k6 _).trans (by decide +kernel), ?_⟩⟩ <;> simp [State.imgPart, h]

theorem hyp_EngineAndFirmwareCommands : (mailed .start 0x0101 []).eng.bistDead = false ∧ (mailed .start 0x0101 []).taken 0 0x0101 = true ∧
    (mailed .start 0x0102 []).taken 0 0x0102 = true ∧
    (let s := { mailed .start 0x0103 [5, 0, 0, 0] with ledger := { armed := true } }
     s.taken 0 0x0103 = true ∧ s.arg 0 1 3 = 0 ∧ s.eng.state = .start ∧ s.arg 0 0 1 = 5 ∧ s.ledger.armed = true) ∧
    (mailed .service 0x0103 [6, 0, 0, 0]).arg 0 0 1 = 6 ∧ (mailed .service 0x0103 [7, 0, 0, 0]).arg 0 0 1 = 7 ∧
    (mailed .service 0x0103 [7, 0, 0, 0]).taken 0 0x0103 = true ∧ (mailed .test 0x0104 []).taken 0 0x0104 = true ∧
    (mailed .service 0x0104 []).taken 0 0x0104 = true ∧ (mailed .service 0x0105 []).taken 0 0x0105 = true ∧
    (let s := mailed .start 0x0206 [1, 0, 0, 0]
     let s := { s with mp := { s.mp with b1valid := true } }
     s.taken 0 0x0206 = true ∧ s.arg 0 1 3 = 0 ∧ s.arg 0 0 1 = 1 ∧ s.mp.b1valid = true) ∧
    (let s := (mailed .start 0x0203 [1, 0, 0, 0]).modGal 0 fun x => { x with gstate := .squeezed }
     let s := { s with mp := { s.mp with verified := true } }
     s.taken 0 0x0203 = true ∧ s.arg 0 0 2 = 2 ^ 0 ∧ s.arg 0 2 2 = 0 ∧ s.present 0 = true ∧ s.mp.verified = true ∧
      (∀ c ∈ s.mp.commits, c.box ≠ 0 ∧ (0 : GalId) ∉ c.todo) ∧
      s.logicOn 0 = true ∧ (s.gal 0).gstate = .squeezed ∧ (s.gal 0).power = none ∧ bit (0 : Half) 0 = false ∧ bit (1 : Half) 0 = true) ∧
    (let s := mailed .start 0x0203 [1, 0, 0, 0]
     let s := { s with mp := { s.mp with verified := true, commits := [{ box := 5, todo := [3], done := 0 }] } }
     s.taken 0 0x0203 = true ∧ (∀ c ∈ s.mp.commits, c.box ≠ 0 ∧ (0 : GalId) ∉ c.todo) ∧ (s.gal 0).gstate = .serving ∧
      s.eng.state = .start ∧ (s.gal 0).power = none) := by decide +kernel

/-- A staged Aferset part of one word with this slot and IMGVER, for UCODE_VERIFY. -/
def aferPart (slot : Byte) (v : Word) : ImgPart := { kind := 1, slot := slot, imgver := v, words := [addWord 0] }

theorem hyp_EngineAndFirmwareCommands_verify : let p := aferPart Config.aferSlot Config.bootFloor
    let s := mailed .start 0x0202 [0, 0, 0, 0]
    let s := { s with mp := { s.mp with staged := { af := some p } } }
    s.taken 0 0x0202 = true ∧ s.arg 0 0 2 = 0 ∧ s.arg 0 2 2 = 0 ∧ s.mp.commits = [] ∧ s.mp.staged.parts = [p] ∧ p.slot = slotOf p.kind ∧
    s.targetSets (s.maskGals 0) = [{ af := some p }] ∧ ({ af := some p } : ImgSet).fault = none ∧ s.floor.toNat ≤ p.imgver.toNat ∧
    ({ eq := true, eqn := false } : CmpPair).late = false := by
  have h : ∀ b v, ({ af := some (aferPart b v) } : ImgSet).fault = ({ af := some (aferPart 0 0) } : ImgSet).fault := fun _ _ => rfl
  refine ⟨?_, ?_, ?_, ?_, rfl, rfl, rfl, (h _ _).trans ?_, Nat.le_refl _, rfl⟩ <;> decide +kernel

theorem hyp_ContextAndProgramCommands : (let s := mailed .start 0x0305 [0, 0, 0, 0]
     s.taken 0 0x0305 = true ∧ s.arg 0 0 1 = 0 ∧ s.arg 0 1 3 = 0 ∧ s.ecc.ue = [] ∧ s.ecc.ce = []) ∧
    (let s := mailed .start 0x0407 [0xFE, 0xFF, 0, 0]
     s.taken 0 0x0407 = true ∧ BitVec.ofNat 16 (s.arg 0 0 2) ≠ 0xFFFF ∧ s.arg 0 2 2 = 0) ∧
    (let s := mailed .start 0x0401 ([7, 0, 0, 0] ++ leBytes 8 0x4000000000000 ++ List.replicate 8 0)
     s.taken 0 0x0401 = true ∧ s.operating = true ∧ s.ctxState 7 = ctxFREE ∧ s.arg 0 3 1 = 0 ∧ s.serving 0 = true ∧ s.arg 0 4 8 % 256 = 0 ∧
      inBuffer (s.arg 0 4 8) 256 = true ∧ s.inStaging (s.arg 0 4 8) 256 = false ∧ s.arg 0 12 8 = 0 ∧ MemOk s) ∧
    (let s := withQ (entered 2 0 0 (mailed .start 0x0402 [7, 0, 1, 0])) fun x => { x with running := some anItem }
     s.taken 0 0x0402 = true ∧ s.arg 0 2 2 = 1 ∧ s.mp.closing = [] ∧ s.ctxState 7 = ctxBOUND ∧ s.boundSeq 7 = some 0 ∧
      (s.seq 0).dbg.halted = false) ∧
    (let s := withQ (entered 1 0 0 (mailed .start 0x0402 [7, 0, 0, 0])) fun x => { x with regs := { x.regs with ctxid := 0xFFFF } }
     s.taken 0 0x0402 = true ∧ s.arg 0 2 2 = 0 ∧ s.ctxState 7 = ctxOPEN ∧ s.boundSeq 7 = none ∧ MemOk s) := by unfold MemOk; decide +kernel

theorem hyp_ContextAndProgramCommands_bind : (let s := entered 1 0 0 (mailed .start 0x0403 ([7, 0, 7, 0] ++ leBytes 16 0))
     s.taken 0 0x0403 = true ∧ s.ctxState 7 = ctxOPEN ∧ s.arg 0 2 1 < 8 ∧ s.arg 0 3 1 = 0 ∧ s.ctxFlag 7 0 = false ∧
      s.mp.closing = [] ∧ (∀ e ∈ s.bindChecks 7 (s.ctxHome 7) 0, e.1 = false) ∧ inBuffer (s.ctxSave 7) 256 = true) ∧
    MemOk (entered 1 0 0 (mailed .start 0x0403 ([7, 0, 7, 0] ++ leBytes 16 0))) := by unfold MemOk; decide +kernel

/-- SEG_BIND of a resident context. -/
theorem hyp_ContextAndProgramCommands_resident : let s := entered 1 1 0 (mailed .start 0x0403 ([7, 0, 7, 0] ++ leBytes 16 0))
    s.ctxState 7 = ctxOPEN ∧ s.ctxFlag 7 0 = true ∧ s.mp.closing = [] ∧ (∀ e ∈ s.bindChecks 7 (s.ctxHome 7) 0, e.1 = false) := by
  decide +kernel

theorem hyp_ContextAndProgramCommands_programs :
    (let s := mailed .start 0x0404 ([0xFF, 3, 0, 0] ++ leBytes 8 0x4000000000000 ++ leBytes 4 4 ++ List.replicate 4 0)
     s.taken 0 0x0404 = true ∧ s.arg 0 0 2 < 1024 ∧ s.mp.progs = [] ∧ s.arg 0 2 1 = 0 ∧ s.logicOn 0 = true ∧ s.galHeld 0 = false ∧ s.arg 0 3 1 = 0 ∧ s.arg 0 0x10 4 = 0 ∧
      s.arg 0 12 4 % 4 = 0 ∧ 0 < s.arg 0 12 4 ∧ s.arg 0 12 4 ≤ 65536 ∧ inBuffer (s.arg 0 4 8) (s.arg 0 12 4) = true ∧
      s.inStaging (s.arg 0 4 8) (s.arg 0 12 4) = false ∧ placesFor (s.noProgram 0) (s.arg 0 12 4) 256 ≠ [] ∧ MemOk s) ∧
    (let s := mailed .start 0x0405 [0xFF, 3, 0, 0]
     let p : Prog := { id := 1023, gal := 0, off := 0x10000, size := 4 }
     let s := { s with mp := { s.mp with progs := [p] } }
     s.taken 0 0x0405 = true ∧ s.arg 0 0 2 < 1024 ∧ s.arg 0 2 2 = 0 ∧ s.mp.progs.find? (fun p => p.id.toNat = s.arg 0 0 2) = some p ∧
      s.progUsed p = false) := by unfold MemOk; decide +kernel

theorem hyp_SetupAndRecorderCommands : (let s := mailed .start 0x0501 [0, 0xFF, 0, 0]
     s.taken 0 0x0501 = true ∧ s.arg 0 0 1 = 0 ∧ s.arg 0 2 2 = 0 ∧ s.logicOn 0 = true) ∧
    (let s := mailed .start 0x0502 [0xFF, 0x3F, 0, 0]
     s.taken 0 0x0502 = true ∧ s.arg 0 0 2 < 0x4000 ∧ s.arg 0 2 2 = 0) ∧
    (let s := mailed .service 0x0503 [0, 0, 0, 0x80]
     s.taken 0 0x0503 = true ∧ bit (BitVec.ofNat 32 (s.arg 0 0 4)) 31 = true ∧
      ({ s with pow := { s.pow with holdcfg := 0x80000000 } } : State).pow.holdEn = true) ∧
    (let s := mailed .start 0x0504 [0xFF, 0xFF, 0x1F, 0, 0xFF, 7, 0xFF, 0x0F]
     s.taken 0 0x0504 = true ∧ s.arg 0 0 4 < 2 ^ 21 ∧ s.arg 0 4 2 < 2 ^ 11 ∧ 256 ≤ s.arg 0 6 2 ∧ s.arg 0 6 2 < 4096) ∧
    (let s := mailed .start 0x0601 [9, 0, 0, 0, 7, 0, 0x7F, 0x10]
     s.taken 0 0x0601 = true ∧ s.arg 0 1 3 = 0 ∧ s.chsubRefused (BitVec.ofNat 8 (s.arg 0 0 1)) (BitVec.ofNat 32 (s.arg 0 4 4)) = false) ∧
    (let s := mailed .start 0x0602 [63, 1, 0, 0]
     s.taken 0 0x0602 = true ∧ s.arg 0 0 1 = 63 ∧ s.arg 0 1 1 = 1 ∧ s.arg 0 2 2 = 0 ∧ (s.ev.cells[63]).ctlRefused 0 = false) ∧
    (let s := mailed .start 0x0601 [9, 0, 0, 0, 0, 0, 0x80, 0x10]
     s.taken 0 0x0601 = true ∧ s.arg 0 1 3 = 0 ∧ s.chsubRefused (BitVec.ofNat 8 (s.arg 0 0 1)) (BitVec.ofNat 32 (s.arg 0 4 4)) = true) ∧
    (let s := mailed .start 0x0602 [63, 1, 0, 0]
     let s := { s with ev := { s.ev with cells := s.ev.cells.set 63 { ctl := 0x80, held := 1 } } }
     s.taken 0 0x0602 = true ∧ s.arg 0 0 1 = 63 ∧ s.arg 0 1 1 < 2 ∧ s.arg 0 2 2 = 0 ∧ (s.ev.cells[63]).ctlRefused 0 = true) ∧
    (let s := mailed .start 0x0603 ([0, 7, 5, 0] ++ List.replicate 24 0)
     s.taken 0 0x0603 = true ∧ s.arg 0 1 1 = 7 ∧ s.arg 0 2 2 = 5 ∧ s.arg 0 0x0E 2 = 0 ∧ (s.timer 0 7).en = false ∧ s.eng.state ≠ .service ∧
      s.timerOn 0 = true) := by decide +kernel

theorem hyp_SetupAndRecorderCommands_rest : (let s := mailed .start 0x0604 [0, 0, 0, 0]
     s.taken 0 0x0604 = true ∧ s.arg 0 1 3 = 0 ∧ (∀ k, k < 16 → s.phaseBad 0 0 k = false) ∧ s.arg 0 0 1 = 0) ∧
    (let s := mailed .start 0x0604 [1, 0, 0, 0]
     (∀ k, k < 16 → s.phaseBad 0 1 k = false) ∧ s.arg 0 0 1 = 1) ∧
    (let s := mailed .start 0x0703 (List.replicate 20 0)
     s.taken 0 0x0703 = true ∧ BitVec.ofNat 32 (s.arg 0 16 4) &&& 0x7F00FFC0 = 0#32) ∧
    (let s := mailed .start 0x0701 ([1, 0, 0, 0x10, 0, 0, 0, 0] ++ leBytes 8 0x4000000000000)
     s.taken 0 0x0701 = true ∧ s.arg 0 0 1 < 2 ∧ s.arg 0 1 1 = 0 ∧ 0 < s.arg 0 2 2 ∧ s.arg 0 2 2 ≤ 4096 ∧
      inBuffer (s.arg 0 8 8) (64 * s.arg 0 2 2) = true ∧ s.inStaging (s.arg 0 8 8) (64 * s.arg 0 2 2) = false ∧ MemOk s) ∧
    (let s := mailed .start 0x0702 [1, 0, 0, 0]
     s.taken 0 0x0702 = true ∧ s.arg 0 0 1 < 2 ∧ s.arg 0 1 3 = 0 ∧ s.recd.credit ≠ 0) ∧
    (let r : Rec := { num := 0, tick := 0, ofs := 0, src := 0, code := 1, payload := [], committed := false }
     let s := { s0 with recd := { s0.recd with staging := [r], request := some 0 } }
     s.nextCommit = some r ∧ s.lastLight = false ∧ s.recd.credit ≠ 0 ∧ ({ s.recd with credit := 0 } : Recorder).credit = 0 ∧
      ({ s.recd with credit := 0x3F } : Recorder).credit.toNat < s.recd.burst.toNat ∧ s.recd.burst.toNat ≤ s.recd.credit.toNat) := by
  unfold MemOk; decide +kernel

/-! ### Hypotheses: Lantern, start-up and power, the whole machine -/

/-- A Lantern command, attached or not; Q0 is halted or not. -/
def lantern (code : Nat) (payload : List Byte) (st : EngState) (halted : Bool) : State :=
  let s := mailed st code payload
  let s := s.each (seqsOf 0) fun s q => s.modSeq q fun x => { x with dbg := { x.dbg with halted := halted } }
  { s with aon := { s.aon with att := true, slot := 0 } }

theorem hyp_LanternCommands_attach : (let s := mailed .start 0x0801 (List.replicate 36 0)
     let s := { s with aon := { s.aon with slot := 0 } }
     s.eng.bistDead = false ∧ s.taken 0 0x0801 = true ∧ s.arg 0 1 3 = 0 ∧ s.aon.lock = false ∧ s.aon.slot ≠ 0xFF ∧ s.aon.att = false ∧
      s.arg 0 0 1 = 0 ∧ s.arg 0 4 32 = 0) ∧
    (let s := mailed .start 0x0801 [1, 0, 0, 0]
     let s := { s with aon := { s.aon with slot := 0, nonce := some 1 } }
     s.taken 0 0x0801 = true ∧ s.arg 0 0 1 = 1 ∧ s.aon.nonce.isSome = true) ∧
    (mailed .start 0x0803 []).aon.att = false ∧ (mailed .start 0x0803 []).taken 0 0x0803 = true ∧
    (mailed .start 0x0809 []).taken 0 0x0809 = true ∧ (lantern 0x0802 [] .start true).taken 0 0x0802 = true ∧
    (lantern 0x0802 [] .start true).aon.att = true := by decide +kernel

theorem hyp_LanternCommands_halt : (let s := lantern 0x0803 (leBytes 16 0xFF) .start false
     (List.finRange 128).all (fun p => !(s.arg 0 0 16).testBit p.val || s.logicOn (galOf p)) = true ∧ s.taken 0 0x0803 = true) ∧
    (lantern 0x0804 (leBytes 16 1) .start true).taken 0 0x0804 = true ∧
    (let s := lantern 0x0805 [0, 7, 0, 0, 0, 1, 0, 0] .start true
     s.taken 0 0x0805 = true ∧ s.arg 0 0 1 = 0 ∧ s.arg 0 1 1 = 7 ∧ s.logicOn 0 = true ∧ (s.seq 7).dbg.halted = true ∧ s.arg 0 3 1 = 0 ∧
      s.arg 0 4 2 = 256 ∧ s.arg 0 6 2 = 0 ∧ s.arg 0 2 1 = 0) ∧
    (lantern 0x0805 [0, 7, 1, 0, 1, 0, 0, 0] .start true).arg 0 2 1 = 1 ∧
    (let s := { s0 with mp := { s0.mp with stepping := [(0, 0, 1)] } }
     s.mp.stepping.find? (fun e => e.1 = 0) = some (0, 0, 1)) := by decide +kernel

theorem hyp_LanternCommands_units : (let s := lantern 0x0806 ([31, 1, 0, 0x80, 0, 0, 0, 0] ++ leBytes 8 (scratchAddr 0 0x2000)) .start true
     s.taken 0 0x0806 = true ∧ s.arg 0 0 1 = 24 + 7 ∧ s.absentMask (s.arg 0 2 2) = false ∧ s.arg 0 6 2 = 0 ∧ s.arg 0 8 8 % 4 = 0 ∧
      regionOf (s.arg 0 8 8) = 2 ∧ s.arg 0 1 1 = 1) ∧
    (lantern 0x0806 [31, 0] .start true).arg 0 1 1 = 0 ∧
    (let s := lantern 0x0807 [0x00, 0x80, 0, 0, 2, 0, 0, 0] .start true
     s.taken 0 0x0807 = true ∧ pokeBad (s.arg 0 0 4) (s.arg 0 4 1) = false ∧ 0 < s.arg 0 4 1 ∧ s.arg 0 4 1 ≤ 28 ∧ s.arg 0 5 3 = 0 ∧
      (∀ i, i < 2 → s.spot true (s.arg 0 0 4 + 4 * i) ≠ .down)) ∧
    (let s := lantern 0x0808 ([0x00, 0x80, 0, 0] ++ leBytes 4 1 ++ leBytes 4 1) .start true
     s.taken 0 0x0808 = true ∧ pokeBad (s.arg 0 0 4) 1 = false ∧ s.spot true (s.arg 0 0 4) = .reg .engid ∧ Reg.engid.ownerBits = 0) := by
  decide +kernel

theorem hyp_LanternCommands_spaces : (let s := lantern 0x0809 ([1, 0, 0, 96] ++ leBytes 8 0x4000000000000) .start true
     s.taken 0 0x0809 = true ∧ (∀ e ∈ s.spaceChecks 0, e.1 = false) ∧ s.arg 0 0 1 = 1) ∧
    (let s := lantern 0x0809 ([0, 0, 0, 4] ++ leBytes 8 (scratchAddr 0 0xFFFFC)) .start true
     s.taken 0 0x0809 = true ∧ (∀ e ∈ s.spaceChecks 0, e.1 = false) ∧ s.arg 0 0 1 = 0 ∧ placeOf (s.arg 0 4 8) = .scratch 0 0xFFFFC) ∧
    (let s := lantern 0x080A ([1, 0, 0, 4] ++ leBytes 8 0x4000000000000 ++ [1, 2, 3, 4]) .start true
     s.taken 0 0x080A = true ∧ (∀ e ∈ s.spaceChecks 0, e.1 = false) ∧ s.inStaging (s.arg 0 4 8) 4 = false) ∧
    (let s := lantern 0x080A ([2, 0, 7, 24] ++ leBytes 8 0xFFF ++ List.replicate 24 1) .test true
     s.taken 0 0x080A = true ∧ (∀ e ∈ s.spaceChecks 0, e.1 = false) ∧ s.arg 0 3 1 = 24 ∧ s.arg 0 1 1 = 0 ∧ s.arg 0 2 1 = 7 ∧
      s.storesOpen 0 = true) := by decide +kernel

theorem hyp_LanternCommands_rest : (let s := lantern 0x080B [7, 0, 0, 0, 1, 0, 1, 0, 0, 0, 1, 0] .start true
     s.taken 0 0x080B = true ∧ s.arg 0 0 1 = 7 ∧ s.arg 0 1 3 = 0 ∧ s.absentMask (s.arg 0 6 2) = false ∧ s.absentMask (s.arg 0 8 2) = false ∧
      s.absentMask (s.arg 0 10 2) = false) ∧
    (let s := lantern 0x080C [0, 7, 0, 96, 0xE0, 0, 0, 0] .start true
     s.taken 0 0x080C = true ∧ s.arg 0 0 1 = 0 ∧ s.arg 0 1 1 = 7 ∧ (s.seq 7).dbg.halted = true ∧ s.arg 0 3 1 = 96 ∧ s.arg 0 4 2 + 96 ≤ 0x140 ∧
      s.arg 0 6 2 = 0 ∧ s.arg 0 2 1 = 0) ∧
    (let s := lantern 0x080C [0, 7, 1, 32, 0, 0, 0, 0] .start true
     s.arg 0 2 1 = 1 ∧ s.arg 0 4 2 = 0 ∧ s.arg 0 3 1 = 32) ∧
    (let s := { s0 with aon := { s0.aon with xtsrc := s0.aon.xtsrc.set 7 3, xtdst := s0.aon.xtdst.set 7 0x10000 } }
     bit s.aon.xtsrc[7] 1 = true ∧ s.ropeArmed 7 = true ∧ bit s.aon.xtdst[7] (16 + (galOf 0).val) = true ∧ s.logicOn (galOf 0) = true) ∧
    s0.ropeArmed 7 = false ∧ bit ({ s0.aon with xtOut := 0x80 } : Aon).xtOut 7 = true := by decide +kernel

theorem hyp_StartAndPower : State.reset.eng.state = .calib ∧ State.reset.pd.back = none ∧
    (let s := { State.reset with pd := { on := 0, req := 2 ^ 32 } }
     bit s.pd.req 32 = true ∧ s.pdOn 32 = false ∧ s.pd.failed = false ∧ s.eng.state = .calib ∧
      (s.raiseOrder.filter (· ≠ 32)).find? (fun k => !s.pdOn k) = some 33 ∧
      ({ s with pd := { s.pd with failed := true } } : State).pd.failed = true) ∧
    (let s := { State.reset with pd := { on := 0xFFFFFFFFFF, req := 0xFFFFFFFFFF } }
     s.eng.state = .calib ∧ s.pd.failed = false ∧ ∀ k ∈ s.raiseOrder, s.pdOn k = true) ∧
    (∃ k ∈ State.reset.raiseOrder, State.reset.pdOn k = false) ∧
    tickOk (10 * (1600 : BitVec 11).toNat) (1600 : BitVec 11).toNat State.reset.plant.tguard.toNat (0x773594 : BitVec 24).toNat = true ∧
    ({ s0.eng with state := .init, bisten := true } : Eng).state = .init ∧ s0.present 15 = true ∧
    ({ s0.eng with state := .load } : Eng).bistDead = false ∧ s0.logicOn 15 = true ∧ bit (0x8000 : Half) 15 = true ∧ 15 < 16 ∧ s0.pd.active = false ∧
    (let s := { s0 with pd := { s0.pd with active := true } }
     s.lastLight = true ∧ s.pd.wrDone = false ∧ s.lightSpent = true) := by
  decide +kernel

/-- Last light has ended; these galleries are to be restored, and these still wait for their domain. -/
def dark (restore awaited : List GalId) (back : Option (List CmpPair)) (busy : Bool) : State :=
  let s := serving .start
  { s with
    eng := { s.eng with mpbusy := busy }
    pd := { s.pd with on := if awaited.isEmpty then s.pd.on else 0, active := true, closed := true, restore, awaited, back } }

theorem hyp_StartAndPower_return :
    (let s := dark [0] [] none false
     s.pd.active = true ∧ s.pd.closed = true ∧ s.pd.restore ≠ [] ∧ s.pd.back = none) ∧
    (let s := dark [] [] none false
     s.pd.restore = [] ∧ s.eng.mpbusy = false ∧ s.pd.back = none) ∧
    (∀ w ∈ [([(0 : GalId)], false), ([0], true), ([0, 5], false)], let s := dark w.1 w.1 (some []) w.2
     s.pd.back = some [] ∧ s.eng.state ≠ .calib ∧ s.present 0 = true ∧ 0 ∈ s.pd.awaited ∧ bit s.pd.req 0 = true ∧ s.pdOn 0 = false ∧
      s.eng.mpbusy = w.2) ∧
    (∃ h ∈ (dark [0, 5] [0, 5] (some []) false).pd.awaited, h ≠ 0) ∧ (∀ h ∈ (dark [0] [0] (some []) false).pd.awaited, h = 0) ∧
    (dark [0] [0] (some []) false).pd.restore = [0] ∧ ([] : List CmpPair).length = ((dark [0] [0] (some []) false).gal 0).installed.parts.length ∧
    (let s := dark [0] [] (some []) true
     s.pd.awaited = [] ∧ s.eng.mpbusy = true ∧ s.pd.restore = [0] ∧ s.logicOn 0 = true) := by decide +kernel

/-- The reset state keeps the invariant's premises, and a step from it answers a next state. -/
theorem hyp_EveryStepKeepsItsMemories : MemOk State.reset ∧ step State.reset = .next State.reset := ⟨⟨rfl, rfl⟩, rfl⟩

end Sys2Proof.Tests
end

section
/-!
PROOF. The register views (R122): every view is a group of byte registers, so a read through it is a concatenation of reads
through B, and a write through it is a sequence of writes through B to distinct bytes.
-/

namespace Sys2Proof.Machine

open Sys2Proof

/-! ### The bytes of a view -/

theorem Regs.byteAt_eq_B (r : Regs) {k : Nat} {n : BitVec 5} (h : k % 32 = n.toNat) : r.byteAt k = r.B n := by
  simp [Regs.byteAt, Regs.B, h]

theorem Regs.setByteAt_eq_setB (r : Regs) {k : Nat} {n : BitVec 5} (v : Byte) (h : k % 32 = n.toNat) :
    r.setByteAt k v = r.setB n v := by
  simp [Regs.setByteAt, Regs.setB, h]

/-! ### The views over the bytes -/

theorem Regs.H_eq_bytes (r : Regs) (n : BitVec 5) : r.H n = r.B (2 * n + 1) ++ r.B (2 * n) := by
  rw [Regs.H, r.byteAt_eq_B (n := 2 * n + 1) (by bv_omega), r.byteAt_eq_B (n := 2 * n) (by bv_omega)]

theorem Regs.W_eq_bytes (r : Regs) (n : BitVec 5) :
    r.W n = r.B (4 * n + 3) ++ r.B (4 * n + 2) ++ r.B (4 * n + 1) ++ r.B (4 * n) := by
  rw [Regs.W, r.byteAt_eq_B (n := 4 * n + 3) (by bv_omega), r.byteAt_eq_B (n := 4 * n + 2) (by bv_omega),
    r.byteAt_eq_B (n := 4 * n + 1) (by bv_omega), r.byteAt_eq_B (n := 4 * n) (by bv_omega)]

theorem Regs.setH_eq_bytes (r : Regs) (n : BitVec 5) (v : Half) :
    r.setH n v = (r.setB (2 * n) (v.extractLsb' 0 8)).setB (2 * n + 1) (v.extractLsb' 8 8) := by
  rw [Regs.setH, Regs.setByteAt_eq_setB (n := 2 * n + 1) _ _ (by bv_omega),
    Regs.setByteAt_eq_setB (n := 2 * n) _ _ (by bv_omega), BitVec.setWidth_eq_extractLsb' (by decide)]

theorem Regs.setW_eq_bytes (r : Regs) (n : BitVec 5) (v : Word) :
    r.setW n v = (((r.setB (4 * n) (v.extractLsb' 0 8)).setB (4 * n + 1) (v.extractLsb' 8 8)).setB
      (4 * n + 2) (v.extractLsb' 16 8)).setB (4 * n + 3) (v.extractLsb' 24 8) := by
  rw [Regs.setW, Regs.setByteAt_eq_setB (n := 4 * n + 3) _ _ (by bv_omega),
    Regs.setByteAt_eq_setB (n := 4 * n + 2) _ _ (by bv_omega), Regs.setByteAt_eq_setB (n := 4 * n + 1) _ _ (by bv_omega),
    Regs.setByteAt_eq_setB (n := 4 * n) _ _ (by bv_omega), BitVec.setWidth_eq_extractLsb' (by decide)]

/-- R122: Wn consists of H(2n+1) and H(2n). -/
theorem Regs.W_eq_halves (r : Regs) (n : BitVec 5) : r.W n = r.H (2 * n + 1) ++ r.H (2 * n) := by
  have h3 : 2 * (2 * n + 1) + 1 = 4 * n + 3 := by bv_omega
  have h2 : 2 * (2 * n + 1) = 4 * n + 2 := by bv_omega
  have h0 : 2 * (2 * n) = 4 * n := by bv_omega
  rw [Regs.W_eq_bytes, Regs.H_eq_bytes, Regs.H_eq_bytes, h3, h2, h0]
  exact BitVec.append_assoc

/-! ### A byte after a write through a view

The byte numbers of one view are distinct, so the order of its byte writes does not matter. -/

theorem Regs.B_setB (r : Regs) (n m : BitVec 5) (v : Byte) : (r.setB n v).B m = if m = n then v else r.B m := by
  simp only [Regs.B, Regs.setB, Vector.getElem_set, BitVec.toNat_inj, eq_comm]

theorem Regs.B_setH (r : Regs) (n m : BitVec 5) (v : Half) :
    (r.setH n v).B m =
      if m = 2 * n then v.extractLsb' 0 8 else if m = 2 * n + 1 then v.extractLsb' 8 8 else r.B m := by
  simp only [Regs.setH_eq_bytes, Regs.B_setB]
  split_ifs <;> simp_all

theorem Regs.B_setW (r : Regs) (n m : BitVec 5) (v : Word) :
    (r.setW n v).B m =
      if m = 4 * n then v.extractLsb' 0 8 else if m = 4 * n + 1 then v.extractLsb' 8 8
      else if m = 4 * n + 2 then v.extractLsb' 16 8 else if m = 4 * n + 3 then v.extractLsb' 24 8 else r.B m := by
  simp only [Regs.setW_eq_bytes, Regs.B_setB]
  split_ifs <;> simp_all

/-! ### A view after a write through it -/

theorem append_bytes_of_half (v : Half) : v.extractLsb' 8 8 ++ v.extractLsb' 0 8 = v :=
  (BitVec.extractLsb'_append_extractLsb'_eq_extractLsb' rfl).trans BitVec.extractLsb'_eq_self

theorem append_bytes_of_word (v : Word) :
    v.extractLsb' 24 8 ++ v.extractLsb' 16 8 ++ v.extractLsb' 8 8 ++ v.extractLsb' 0 8 = v := by
  have h16 : v.extractLsb' 24 8 ++ v.extractLsb' 16 8 = v.extractLsb' 16 16 :=
    BitVec.extractLsb'_append_extractLsb'_eq_extractLsb' rfl
  have h8 : v.extractLsb' 16 16 ++ v.extractLsb' 8 8 = v.extractLsb' 8 24 :=
    BitVec.extractLsb'_append_extractLsb'_eq_extractLsb' rfl
  have h0 : v.extractLsb' 8 24 ++ v.extractLsb' 0 8 = v.extractLsb' 0 32 :=
    BitVec.extractLsb'_append_extractLsb'_eq_extractLsb' rfl
  rw [h16, h8, h0, BitVec.extractLsb'_eq_self]

@[simp] theorem Regs.B_setB_self (r : Regs) (n : BitVec 5) (v : Byte) : (r.setB n v).B n = v := by
  rw [Regs.B_setB, if_pos rfl]

@[simp] theorem Regs.H_setH_self (r : Regs) (n : BitVec 5) (v : Half) : (r.setH n v).H n = v := by
  have h : 2 * n + 1 ≠ 2 * n := by bv_omega
  rw [Regs.H_eq_bytes, Regs.B_setH, Regs.B_setH, if_neg h, if_pos rfl, if_pos rfl, append_bytes_of_half]

@[simp] theorem Regs.W_setW_self (r : Regs) (n : BitVec 5) (v : Word) : (r.setW n v).W n = v := by
  have h3 : (r.setW n v).B (4 * n + 3) = v.extractLsb' 24 8 := by simp [Regs.B_setW]
  have h2 : (r.setW n v).B (4 * n + 2) = v.extractLsb' 16 8 := by simp [Regs.B_setW]
  have h1 : (r.setW n v).B (4 * n + 1) = v.extractLsb' 8 8 := by simp [Regs.B_setW]
  have h0 : (r.setW n v).B (4 * n) = v.extractLsb' 0 8 := by simp [Regs.B_setW]
  rw [Regs.W_eq_bytes, h3, h2, h1, h0, append_bytes_of_word]

/-- Settles O2: the views compose over the bytes, and a write through one is a sequence of byte writes. -/
theorem registerViews : Obligations.RegisterViews := fun r n m =>
  ⟨r.H_eq_bytes n, r.W_eq_halves n, r.B_setB n m, r.B_setH n m, r.B_setW n m, r.B_setB_self n, r.H_setH_self n, r.W_setW_self n⟩

end Sys2Proof.Machine
end

section
/-!
PROOF. Conditional jumps (R162) and the privileged instructions in program mode (R144).
-/

namespace Sys2Proof.Machine

open Sys2Proof

/-! ### Jcc (R161, R162) -/

theorem jcc_transfers {q : SeqId} {m : BitVec 4} {s : State} (t : Half) (hrun : canRun q (tSt (jccMask m)) s = true)
    (hc : (s.regs q).jcc m = true) : Transfers (.jcc q m t) q s (fetched q s) t := by
  have hb : jccBody q m t (fetched q s) = .jump (fetched q s) t := by simp [jccBody, hc]
  exact ⟨_, rfl, runInstr_jump hrun hb⟩

theorem jcc_runsOn {q : SeqId} {m : BitVec 4} {s : State} (t : Half) (hrun : canRun q (tSt (jccMask m)) s = true)
    (hc : (s.regs q).jcc m = false) : RunsTo (.jcc q m t) q s (fetched q s) := by
  have hb : jccBody q m t (fetched q s) = .done (fetched q s) := by simp [jccBody, hc]
  exact ⟨_, rfl, runInstr_done hrun hb⟩

/-- Settles O17: the body jumps exactly where the condition holds, and each row of R162's table, MINOR 0x0 to 0xF in order, is
its Boolean expression over the flags. -/
theorem branchConditions : Obligations.BranchConditions := by
  have clear (b : Bool) : (!b) = true ↔ b = false := iff_of_eq (Bool.not_eq_true' b)
  refine ⟨fun q m t s hrun => ⟨jcc_transfers t hrun, jcc_runsOn t hrun⟩, fun r => ?_⟩
  exact ⟨.rfl, clear _, .rfl, clear _, .rfl, clear _, .rfl, clear _,
    (Bool.and_eq_true_iff ..).trans (and_congr (clear _) (clear _)), Bool.or_eq_true_iff ..,
    beq_iff_eq, bne_iff_ne,
    (Bool.and_eq_true_iff ..).trans (and_congr (clear _) beq_iff_eq),
    (Bool.or_eq_true_iff ..).trans (or_congr .rfl bne_iff_ne),
    .rfl, clear _⟩

/-! ### What a privileged instruction's body answers in program mode -/

section

variable {q : SeqId} {s : State} (hp : (s.regs q).priv = false)
include hp

theorem privBody_program (body : State → Res) : privBody q body s = .exn s (privFault (s.regs q).pc) := by
  simp [privBody, hp]

theorem retsBody_program : retsBody q s = .exn s (privFault (s.regs q).pc) := by
  have hx : (s.seq q).regs.priv = false := hp
  simp only [retsBody, hx, Bool.not_false, if_true]
  rfl

theorem setmlBody_program {imm : Byte} (h : imm.toNat < 8) : setmlBody q imm s = .exn s (privFault (s.regs q).pc) := by
  rw [setmlBody, if_neg (by omega), privBody_program hp]

theorem stimBody_program {imm : Byte} (h : imm.toNat < 32) : stimBody q imm s = .exn s (privFault (s.regs q).pc) := by
  rw [stimBody, if_neg (by omega), privBody_program hp]

theorem waiteTBody_program {imm : Byte} (h : imm.toNat < 8) : waiteTBody q imm s = .exn s (privFault (s.regs q).pc) := by
  rw [waiteTBody, if_neg (by omega), privBody_program hp]

end

/-- SLD and SST of a listed MINOR whose COPY bit names S0 or S7, or is clear, are refused in program mode. -/
theorem sldRefuse_program {r : Regs} (hp : r.priv = false) {f : FormR} (hm : f.minor.toNat ≤ 1)
    (hcopy : sldCopy f = true → sldReg f = 0 ∨ sldReg f = 7) : sldRefuse r f = some (privFault r.pc) := by
  have hbad : (sldCopy f && sldReg f != 0 && sldReg f != 7) = false := by
    cases hc : sldCopy f with
    | false => rfl
    | true => obtain h | h := hcopy hc <;> simp [h]
  rw [sldRefuse, if_neg (by omega), hbad, if_neg Bool.false_ne_true, hp]
  rfl

theorem sldBody_of_refuse {q : SeqId} {f : FormR} {s : State} {e : Exn} (h : sldRefuse (s.regs q) f = some e) :
    sldBody q f s = .exn s e := by
  simp only [sldBody, h]

theorem sstBody_of_refuse {q : SeqId} {f : FormR} {s : State} {e : Exn} (h : sldRefuse (s.regs q) f = some e) :
    sstBody q f s = .exn s e := by
  simp only [sstBody, h]

/-- Every number of R131 is one that R130 assigns. -/
theorem srAssigned_of_srPriv {n : Nat} (h : srPriv n = true) : srAssigned n = true := by
  have h' : (decide (0x10 ≤ n) && decide (n ≤ 0x15)) = true := h
  rw [srAssigned, h', Bool.or_true]

/-- MOVX of a number of R131 that nothing else refuses is refused in program mode. -/
theorem movxBody_program {q : SeqId} {s : State} (hp : (s.regs q).priv = false) {x : FormRI} (hm : x.minor.toNat ≤ 1)
    (hi : x.imm.toNat < 32) (hsr : srPriv x.imm.toNat = true) (hro : x.minor = 1 → srReadOnly x.imm.toNat = false) :
    movxBody q x s = .exn s (privFault (s.regs q).pc) := by
  have hnum : movxNum x = x.imm.toNat := Nat.mod_eq_of_lt hi
  have hwr : (x.minor = 1 && srReadOnly x.imm.toNat) = false := by simpa using hro
  have hill : (decide (32 ≤ x.imm.toNat) || !srAssigned x.imm.toNat || (x.minor = 1 && srReadOnly x.imm.toNat)) = false := by
    rw [hwr, srAssigned_of_srPriv hsr, decide_eq_false (by omega)]; rfl
  simp only [movxBody, hnum, if_neg (show ¬ 1 < x.minor.toNat by omega), hill, hsr, hp, Bool.false_eq_true, if_false,
    Bool.not_false, Bool.and_true, if_true]

/-! ### The fault (R144) -/

/-- An instruction whose body, after the fetch, answers PRIV at the PC raises that fault. -/
theorem raises_priv_of_body {i : Instr} {q : SeqId} {touch : Touch} {s : State} {body : State → Res}
    (hexec : exec i s = .next (runInstr i q touch body s)) (hrun : canRun q touch s = true)
    (hb : body (fetched q s) = .exn (fetched q s) (privFault ((fetched q s).regs q).pc)) :
    Raises i q s (fetched q s) (privFault (s.regs q).pc) := by
  rw [fetched_regs] at hb
  exact ⟨_, hexec, runInstr_exn hrun hb⟩

/-- Settles O21: the fetch leaves the registers, so each body still finds program mode, and it answers PRIV before any change. -/
theorem privilegedInProgramMode : Obligations.PrivilegedInProgramMode := by
  intro q f x imm ch rd s hpriv
  have hp : ((fetched q s).regs q).priv = false := by rw [fetched_regs]; exact hpriv
  refine ⟨fun hrun i hi => ?plain, fun hrun h => ?setml, fun hrun h => ?stim, fun hrun => ⟨?take, ?waite, fun h => ?waiteT⟩,
    fun hrun => ?cnt, fun hrun => ?rets, fun hrun hm hcopy => ?segment, fun hrun hm hi hsr hro => ?movx⟩
  case plain =>
    simp only [List.mem_cons, List.not_mem_nil, or_false] at hi
    obtain rfl | rfl | rfl := hi <;> exact raises_priv_of_body rfl hrun (privBody_program hp _)
  case setml => exact raises_priv_of_body rfl hrun (setmlBody_program hp h)
  case stim => exact raises_priv_of_body rfl hrun (stimBody_program hp h)
  case take => exact raises_priv_of_body rfl hrun (privBody_program hp _)
  case waite => exact raises_priv_of_body rfl hrun (privBody_program hp _)
  case waiteT => exact raises_priv_of_body rfl hrun (waiteTBody_program hp h)
  case cnt => exact raises_priv_of_body rfl hrun (privBody_program hp _)
  case rets => exact raises_priv_of_body rfl hrun (retsBody_program hp)
  case segment =>
    have hrefuse := sldRefuse_program hp hm hcopy
    exact ⟨raises_priv_of_body rfl hrun (sldBody_of_refuse hrefuse), raises_priv_of_body rfl hrun (sstBody_of_refuse hrefuse)⟩
  case movx => exact raises_priv_of_body rfl hrun (movxBody_program hp hm hi hsr hro)

end Sys2Proof.Machine
end
